-- ==== Sys2Proof/Word.lean ====
section
/-! DEFINITION. The words of the DHT22 protocol engine: bytes, host register words, the 40-bit frame, the line's
level and the pin's direction (spec/00_scope.md R9, R10, R12; spec/10_state.md R35). -/

namespace Sys2Proof

/-- One byte of the frame (R9). -/
abbrev Byte := BitVec 8

/-- One host-visible register value: 32 bits (R10, R53). -/
abbrev Word := BitVec 32

/-- A RawFrame: 40 bits, five bytes in transmission order, byte 0 in bits 39:32 (R9, R72). -/
abbrev Frame := BitVec 40

/-- A level of the line (R12, R18). -/
inductive Level where
  | low
  | high
deriving DecidableEq, Repr, Inhabited

/-- A direction of the pin (R12, R35). -/
inductive Dir where
  | input
  | output
deriving DecidableEq, Repr, Inhabited

end Sys2Proof
end

