-- ==== Sys2Proof/Config.lean ====
section
/-! DEFINITION. What a configuration of the block fixes (spec/00_scope.md R8, R14; spec/20_memory.md R58) and the one
free value of the model: the level the environment gives a line read (R15, R36; spec/93_implementation_defined.md I3).
The legal ranges of the parameters are checked in Machine/Parameters.lean. -/

namespace Sys2Proof.Config

/-- The bound of a wait: a number of line reads, or `UNBOUNDED` (R8, R14). -/
inductive Bound where
  | reads (n : Nat)
  | unbounded
deriving DecidableEq, Repr

/-- The named constants of R8, and the open base address `REG_BASE` of R58. A model takes each as an argument: a state
holds one such record, which no step changes (R65; assumption log 1). -/
structure Params where
  /-- `T_IDLE_MS`: line held high before the start pulse, in ms. -/
  tIdleMs : Nat
  /-- `T_START_LOW_MS`: start pulse low time, in ms. -/
  tStartLowMs : Nat
  /-- `T_RELEASE_US`: delay after driving high at release, in µs. -/
  tReleaseUs : Nat
  /-- `HS_POLLS`: maximum line reads in the acknowledgement wait. -/
  hsPolls : Nat
  /-- `POLL_US`: delay between two reads of one wait, in µs. -/
  pollUs : Nat
  /-- `WAIT_POLLS`: maximum line reads in every other wait, or `UNBOUNDED`. -/
  waitPolls : Bound
  /-- `T_SETTLE_US`: delay from seeing a bit's rising level to sampling it, in µs. -/
  tSettleUs : Nat
  /-- `T_TAIL_US`: extra delay after sampling a 1 bit, in µs. -/
  tTailUs : Nat
  /-- `REG_BASE`: base address of the register window; open in the spec (assumption log 7). -/
  regBase : Nat
deriving DecidableEq, Repr

/-- The "value" column of R8. DESIGN CHOICE: `regBase`, which the spec leaves open, is written 0 here; no statement
rests on it (assumption log 7). -/
def defaults : Params where
  tIdleMs := 100
  tStartLowMs := 2
  tReleaseUs := 0
  hsPolls := 200
  pollUs := 1
  waitPolls := .reads 200
  tSettleUs := 30
  tTailUs := 45
  regBase := 0

/-- The level the environment gives the n-th line read of a run when the state's level script lists none: a free value,
High or Low, with no constraint (R15, R36, R193; I3, I4; assumption log 2). -/
opaque freeLevel : Nat → Level

end Sys2Proof.Config
end

