-- ==== Sys2Proof/Machine/Codes.lean ====
section
/-! DEFINITION. The codes of the register view: engine state codes (spec/30_encoding.md R80), result codes (R78), command
codes (R76) and register offsets (spec/10_state.md R28). -/

namespace Sys2Proof

namespace StateCode
abbrev idle : BitVec 4 := 0x0#4
abbrev startHigh : BitVec 4 := 0x1#4
abbrev startLow : BitVec 4 := 0x2#4
abbrev startRelease : BitVec 4 := 0x3#4
abbrev waitAckLow : BitVec 4 := 0x4#4
abbrev waitHsHigh : BitVec 4 := 0x5#4
abbrev waitHsLow : BitVec 4 := 0x6#4
abbrev waitBitHigh : BitVec 4 := 0x7#4
abbrev bitSample : BitVec 4 := 0x8#4
abbrev bitTail : BitVec 4 := 0x9#4
abbrev waitBitLow : BitVec 4 := 0xA#4
abbrev bitCommit : BitVec 4 := 0xB#4
abbrev done : BitVec 4 := 0xC#4
end StateCode

namespace ResultCode
abbrev none : BitVec 3 := 0#3
abbrev success : BitVec 3 := 1#3
abbrev noResponse : BitVec 3 := 2#3
abbrev timeout : BitVec 3 := 3#3
abbrev checksumMismatch : BitVec 3 := 4#3
end ResultCode

namespace CmdCode
abbrev nop : BitVec 8 := 0x00#8
abbrev acquire : BitVec 8 := 0x01#8
abbrev decode : BitVec 8 := 0x02#8
abbrev readSensor : BitVec 8 := 0x03#8
end CmdCode

namespace Offset
abbrev ctrl : Nat := 0x00
abbrev status : Nat := 0x04
abbrev frameLo : Nat := 0x08
abbrev frameHi : Nat := 0x0C
abbrev reading : Nat := 0x10
abbrev reserved14 : Nat := 0x14
abbrev reserved18 : Nat := 0x18
abbrev reserved1C : Nat := 0x1C
end Offset

end Sys2Proof
end

