-- ==== Sys2Proof/Syntax.lean ====
section
/-! DEFINITION. The instructions: one constructor for each of the 39 rows of spec/opcode_table.json, in the table's
order. The rows are of four formats: CMD, a command code written to CTRL (spec/30_encoding.md R76); STATE, a state of the
Protocol Engine (R80); HOST_RD and HOST_WR, a host read or write of a register offset (spec/10_state.md R28). A reserved
command carries its whole code, whose range WellFormed.lean checks; a host write carries the value written. -/

namespace Sys2Proof

inductive Instr where
  -- format CMD
  /-- NOP, code 0x00 (R101). -/
  | nop
  /-- ACQUIRE, code 0x01 (R102). -/
  | acquire
  /-- DECODE, code 0x02 (R103). -/
  | decode
  /-- READ_SENSOR, code 0x03 (R104). -/
  | readSensor
  /-- RESERVED_CMD, codes 0x04 to 0x07 (R105). -/
  | reservedCmd04 (code : BitVec 8)
  /-- RESERVED_CMD, codes 0x08 to 0x0F (R105). -/
  | reservedCmd08 (code : BitVec 8)
  /-- RESERVED_CMD, codes 0x10 to 0x1F (R105). -/
  | reservedCmd10 (code : BitVec 8)
  /-- RESERVED_CMD, codes 0x20 to 0x3F (R105). -/
  | reservedCmd20 (code : BitVec 8)
  /-- RESERVED_CMD, codes 0x40 to 0x7F (R105). -/
  | reservedCmd40 (code : BitVec 8)
  /-- RESERVED_CMD, codes 0x80 to 0xFF (R105). -/
  | reservedCmd80 (code : BitVec 8)
  -- format STATE
  /-- IDLE, state 0x0 (R131). -/
  | idle
  /-- START_HIGH, state 0x1 (R132). -/
  | startHigh
  /-- START_LOW, state 0x2 (R133). -/
  | startLow
  /-- START_RELEASE, state 0x3 (R134). -/
  | startRelease
  /-- WAIT_ACK_LOW, state 0x4 (R136). -/
  | waitAckLow
  /-- WAIT_HS_HIGH, state 0x5 (R137). -/
  | waitHsHigh
  /-- WAIT_HS_LOW, state 0x6 (R138). -/
  | waitHsLow
  /-- WAIT_BIT_HIGH, state 0x7 (R139). -/
  | waitBitHigh
  /-- BIT_SAMPLE, state 0x8 (R140). -/
  | bitSample
  /-- BIT_TAIL, state 0x9 (R141). -/
  | bitTail
  /-- WAIT_BIT_LOW, state 0xA (R142). -/
  | waitBitLow
  /-- BIT_COMMIT, state 0xB (R143). -/
  | bitCommit
  /-- DONE, state 0xC (R144). -/
  | done
  -- format HOST_RD
  /-- RD CTRL, offset 0x00 (R107). -/
  | rdCtrl
  /-- RD STATUS, offset 0x04 (R107). -/
  | rdStatus
  /-- RD FRAME_LO, offset 0x08 (R107). -/
  | rdFrameLo
  /-- RD FRAME_HI, offset 0x0C (R107). -/
  | rdFrameHi
  /-- RD READING, offset 0x10 (R107). -/
  | rdReading
  /-- RD RESERVED, offset 0x14 (R107). -/
  | rdReserved14
  /-- RD RESERVED, offset 0x18 (R107). -/
  | rdReserved18
  /-- RD RESERVED, offset 0x1C (R107). -/
  | rdReserved1C
  -- format HOST_WR
  /-- WR CTRL, offset 0x00: the value's bits 7:0 are a command (R100, R29). -/
  | wrCtrl (value : Word)
  /-- WR STATUS, offset 0x04 (R109). -/
  | wrStatus (value : Word)
  /-- WR FRAME_LO, offset 0x08 (R108). -/
  | wrFrameLo (value : Word)
  /-- WR FRAME_HI, offset 0x0C (R108). -/
  | wrFrameHi (value : Word)
  /-- WR READING, offset 0x10 (R109). -/
  | wrReading (value : Word)
  /-- WR RESERVED, offset 0x14 (R109). -/
  | wrReserved14 (value : Word)
  /-- WR RESERVED, offset 0x18 (R109). -/
  | wrReserved18 (value : Word)
  /-- WR RESERVED, offset 0x1C (R109). -/
  | wrReserved1C (value : Word)
deriving DecidableEq, Repr

end Sys2Proof
end

