-- ==== Sys2Proof/WellFormed.lean ====
section
/-! DEFINITION. Which instructions are well formed: a reserved command's code lies in its row's range, which is the
row's match under its mask in spec/opcode_table.json (spec/30_encoding.md R76, R82). Every other operand is a value
written, of which every 32-bit value is allowed (spec/40_host_commands.md R105, R108, R109). -/

namespace Sys2Proof

/-- `code` is the row's match on the bits of the row's mask. -/
def codeInRow (code pattern mask : BitVec 8) : Bool :=
  code &&& mask == pattern

def Instr.wellFormed : Instr → Bool
  | .nop => true
  | .acquire => true
  | .decode => true
  | .readSensor => true
  | .reservedCmd04 code => codeInRow code 0x04#8 0xFC#8
  | .reservedCmd08 code => codeInRow code 0x08#8 0xF8#8
  | .reservedCmd10 code => codeInRow code 0x10#8 0xF0#8
  | .reservedCmd20 code => codeInRow code 0x20#8 0xE0#8
  | .reservedCmd40 code => codeInRow code 0x40#8 0xC0#8
  | .reservedCmd80 code => codeInRow code 0x80#8 0x80#8
  | .idle => true
  | .startHigh => true
  | .startLow => true
  | .startRelease => true
  | .waitAckLow => true
  | .waitHsHigh => true
  | .waitHsLow => true
  | .waitBitHigh => true
  | .bitSample => true
  | .bitTail => true
  | .waitBitLow => true
  | .bitCommit => true
  | .done => true
  | .rdCtrl => true
  | .rdStatus => true
  | .rdFrameLo => true
  | .rdFrameHi => true
  | .rdReading => true
  | .rdReserved14 => true
  | .rdReserved18 => true
  | .rdReserved1C => true
  | .wrCtrl _ => true
  | .wrStatus _ => true
  | .wrFrameLo _ => true
  | .wrFrameHi _ => true
  | .wrReading _ => true
  | .wrReserved14 _ => true
  | .wrReserved18 _ => true
  | .wrReserved1C _ => true

end Sys2Proof
end

