-- ==== Sys2Proof/Decode.lean ====
section
/-! DEFINITION. Decoding and encoding. The block has three places an instruction is read from (spec/30_encoding.md):
the value written to CTRL, the engine's state register `pc`, and a host access to the register window. -/

namespace Sys2Proof

/-- The bits an instruction is read from, before decoding. -/
inductive Code where
  /-- A value written to CTRL, read as a command (R76, R77). -/
  | command (v : Word)
  /-- The value of `pc`, read as an engine state (R80). -/
  | state (c : BitVec 4)
  /-- A host read of `width` bytes at byte offset `off` of the window (R12, R54). -/
  | read (off width : Nat)
  /-- A host write of `width` bytes of `v` at byte offset `off` of the window (R12, R54). -/
  | write (off width : Nat) (v : Word)
deriving DecidableEq, Repr

/-- Why a code is no instruction. -/
inductive Reject where
  /-- State codes 0xD to 0xF (R80, R82; I26). -/
  | reservedStateCode
  /-- An access that lies outside the 32-byte window (R54; I27). -/
  | outsideWindow
  /-- An access of a width other than 4 bytes (R54; I27). -/
  | badWidth
  /-- An access at an offset that is no multiple of 4 (R54; I27). -/
  | misaligned
deriving DecidableEq, Repr

/-- The command a CTRL code selects (R76): total, each of the 256 codes has a row of the opcode table. -/
def decodeCommand (c : BitVec 8) : Instr :=
  if c = CmdCode.nop then .nop
  else if c = CmdCode.acquire then .acquire
  else if c = CmdCode.decode then .decode
  else if c = CmdCode.readSensor then .readSensor
  else if codeInRow c 0x04#8 0xFC#8 then .reservedCmd04 c
  else if codeInRow c 0x08#8 0xF8#8 then .reservedCmd08 c
  else if codeInRow c 0x10#8 0xF0#8 then .reservedCmd10 c
  else if codeInRow c 0x20#8 0xE0#8 then .reservedCmd20 c
  else if codeInRow c 0x40#8 0xC0#8 then .reservedCmd40 c
  else .reservedCmd80 c

/-- The state a `pc` value names (R80); codes 0xD to 0xF name none. -/
def decodeState (c : BitVec 4) : Except Reject Instr :=
  if c = StateCode.idle then .ok .idle
  else if c = StateCode.startHigh then .ok .startHigh
  else if c = StateCode.startLow then .ok .startLow
  else if c = StateCode.startRelease then .ok .startRelease
  else if c = StateCode.waitAckLow then .ok .waitAckLow
  else if c = StateCode.waitHsHigh then .ok .waitHsHigh
  else if c = StateCode.waitHsLow then .ok .waitHsLow
  else if c = StateCode.waitBitHigh then .ok .waitBitHigh
  else if c = StateCode.bitSample then .ok .bitSample
  else if c = StateCode.bitTail then .ok .bitTail
  else if c = StateCode.waitBitLow then .ok .waitBitLow
  else if c = StateCode.bitCommit then .ok .bitCommit
  else if c = StateCode.done then .ok .done
  else .error .reservedStateCode

/-- The only defined accesses: 4 bytes wide, at a multiple of 4 in 0x00 to 0x1C (R54). The order in which the three
defects are named is the model's (assumption log 12). -/
def checkAccess (off width : Nat) : Except Reject Unit :=
  if 0x20 ≤ off then .error .outsideWindow
  else if width ≠ 4 then .error .badWidth
  else if off % 4 ≠ 0 then .error .misaligned
  else .ok ()

/-- The register read at an aligned offset of the window (R28). -/
def readAt (off : Nat) : Instr :=
  if off = Offset.ctrl then .rdCtrl
  else if off = Offset.status then .rdStatus
  else if off = Offset.frameLo then .rdFrameLo
  else if off = Offset.frameHi then .rdFrameHi
  else if off = Offset.reading then .rdReading
  else if off = Offset.reserved14 then .rdReserved14
  else if off = Offset.reserved18 then .rdReserved18
  else .rdReserved1C

/-- The register written at an aligned offset of the window (R28). -/
def writeAt (off : Nat) (v : Word) : Instr :=
  if off = Offset.ctrl then .wrCtrl v
  else if off = Offset.status then .wrStatus v
  else if off = Offset.frameLo then .wrFrameLo v
  else if off = Offset.frameHi then .wrFrameHi v
  else if off = Offset.reading then .wrReading v
  else if off = Offset.reserved14 then .wrReserved14 v
  else if off = Offset.reserved18 then .wrReserved18 v
  else .wrReserved1C v

/-- The command byte of a value written to CTRL: bits 7:0; bits 31:8 are ignored (R29, R77). -/
def commandByte (v : Word) : BitVec 8 :=
  v.extractLsb' 0 8

/-- The decoder: total on every code, rejecting by name. -/
def decode : Code → Except Reject Instr
  | .command v => .ok (decodeCommand (commandByte v))
  | .state c => decodeState c
  | .read off width =>
    match checkAccess off width with
    | .ok () => .ok (readAt off)
    | .error r => .error r
  | .write off width v =>
    match checkAccess off width with
    | .ok () => .ok (writeAt off v)
    | .error r => .error r

/-- A command code as the value written to CTRL: bits 31:8, which are ignored, are zero (R76). -/
def commandValue (c : BitVec 8) : Word :=
  c.zeroExtend 32

/-- The encoder, from the tables R76, R80 and R28. -/
def encode : Instr → Code
  | .nop => .command 0x00000000#32
  | .acquire => .command 0x00000001#32
  | .decode => .command 0x00000002#32
  | .readSensor => .command 0x00000003#32
  | .reservedCmd04 code => .command (commandValue code)
  | .reservedCmd08 code => .command (commandValue code)
  | .reservedCmd10 code => .command (commandValue code)
  | .reservedCmd20 code => .command (commandValue code)
  | .reservedCmd40 code => .command (commandValue code)
  | .reservedCmd80 code => .command (commandValue code)
  | .idle => .state 0x0#4
  | .startHigh => .state 0x1#4
  | .startLow => .state 0x2#4
  | .startRelease => .state 0x3#4
  | .waitAckLow => .state 0x4#4
  | .waitHsHigh => .state 0x5#4
  | .waitHsLow => .state 0x6#4
  | .waitBitHigh => .state 0x7#4
  | .bitSample => .state 0x8#4
  | .bitTail => .state 0x9#4
  | .waitBitLow => .state 0xA#4
  | .bitCommit => .state 0xB#4
  | .done => .state 0xC#4
  | .rdCtrl => .read 0x00 4
  | .rdStatus => .read 0x04 4
  | .rdFrameLo => .read 0x08 4
  | .rdFrameHi => .read 0x0C 4
  | .rdReading => .read 0x10 4
  | .rdReserved14 => .read 0x14 4
  | .rdReserved18 => .read 0x18 4
  | .rdReserved1C => .read 0x1C 4
  | .wrCtrl v => .write 0x00 4 v
  | .wrStatus v => .write 0x04 4 v
  | .wrFrameLo v => .write 0x08 4 v
  | .wrFrameHi v => .write 0x0C 4 v
  | .wrReading v => .write 0x10 4 v
  | .wrReserved14 v => .write 0x14 4 v
  | .wrReserved18 v => .write 0x18 4 v
  | .wrReserved1C v => .write 0x1C 4 v

/-- A code with its ignored bits cleared: a command keeps bits 7:0 of the value alone (R77); the other codes have no
ignored bit. -/
def Code.canonical : Code → Code
  | .command v => .command (commandValue (commandByte v))
  | .state c => .state c
  | .read off width => .read off width
  | .write off width v => .write off width v

/-- A number's bits as a code, by the format number in bits 15:8: 0 CMD, 1 STATE, 2 HOST_RD, 3 HOST_WR. Bits 7:0 are the
bits spec/opcode_table.json gives the row: a command code, a state code or a window offset. Bits 47:16 are a write's value.
A number that is no format, or no 4-bit state code, is an access of width 0, which `decode` rejects. -/
def layoutCode (b : Nat) : Code :=
  let row := b % 256
  match b / 256 % 256 with
  | 0 => .command (BitVec.ofNat 32 row)
  | 1 => if row < 16 then .state (BitVec.ofNat 4 row) else .read row 0
  | 2 => .read row 4
  | 3 => .write row 4 (BitVec.ofNat 32 (b / 65536))
  | _ => .read row 0

/-- The code a table word stands for (DESIGN CHOICE, assumption log 8). The table's four formats give one number several
rows: 0x01 is both ACQUIRE and START_HIGH. A word of the 4 bits of a STATE row is a state and one of the 5 bits of a HOST row
is a read; in whole bytes the format number of `layoutCode` tells the rows apart, so that a bare byte is a command. -/
def tableCode (nbits w : Nat) : Code :=
  let b := w % 2 ^ nbits
  match nbits with
  | 4 => .state (BitVec.ofNat 4 b)
  | 5 => .read b 4
  | _ => layoutCode b

/-- The instruction the decoder reads from a table word. -/
def decodeTableWord (nbits w : Nat) : Option Instr :=
  match decode (tableCode nbits w) with
  | .ok i => some i
  | .error _ => none

end Sys2Proof
end

