-- ==== Sys2Proof/Machine/State.lean ====
section
/-! DEFINITION. The machine's state as plain data (spec/10_state.md), the reasons a step stops, and the state after reset
(R40). The block has no memory (R50); FRAME_LO and FRAME_HI are two views of the one 40-bit FRAME (R34); BUSY and STATUS
are computed from `pc` and RESULT (R21, R30); CTRL holds no value (R29). -/

namespace Sys2Proof.Machine

/-- The frame buffer `buf[0..4]`: five 8-bit registers in transmission order (R24). -/
structure FrameBuffer where
  b0 : Byte
  b1 : Byte
  b2 : Byte
  b3 : Byte
  b4 : Byte
deriving DecidableEq, Repr

/-- One primitive as the engine issues it to its collaborators (R12, R61, R190, R195); a read with the level it
returned. -/
inductive Prim where
  | setDir (d : Dir)
  | write (l : Level)
  | read (l : Level)
  | delayUs (n : Nat)
  | delayMs (n : Nat)
deriving DecidableEq, Repr

/-- `MemRead(addr, width)` or `MemWrite(addr, width, v)` (R12, R100). A width other than 4 bytes is representable so
that it can be refused (R54). -/
inductive Access where
  | memRead (addr width : Nat)
  | memWrite (addr width : Nat) (v : Word)
deriving DecidableEq, Repr

/-- What happens next in an interleaving of engine steps and host accesses (R60; assumption log 3). -/
inductive Turn where
  /-- The engine takes one step (none while IDLE, R131). -/
  | engine
  /-- The host performs one access (R100). -/
  | access (a : Access)
  /-- The host's pseudo-operation WAITIDLE (R85): one read of STATUS, repeated until its bit 0 is 0 (assumption log 4). -/
  | waitIdle
  /-- The block is reset (R240). -/
  | reset
deriving DecidableEq, Repr

/-- Why the machine stops with a fault. Each is safe: the machine stops where the spec gives no meaning. -/
inductive Fault where
  /-- Raised by the operation `lineWrite` while `dir = Input` (R192; I1). Safe; unreachable from reset (R148). -/
  | lineWriteWhileInput
  /-- Raised by the operation `lineRead` while `dir = Output` (R193; I2). Safe; unreachable from reset (R148). -/
  | lineReadWhileOutput
  /-- Raised by BIT_COMMIT where a full byte has no place in the buffer, `bidx` over 4 (R24; assumption log 10). Safe;
  unreachable from reset. -/
  | bufferIndexOutOfRange
deriving DecidableEq, Repr

/-- Why the model refuses a state, a configuration or an access. Each is safe: no run exists there. -/
inductive Refusal where
  /-- Raised by `exec` for an instruction with no meaning yet. Safe. No arm raises it. -/
  | notModelled (mnemonic : String)
  /-- Raised by `step`: a parameter lies outside its legal range of R8 (R242; I28). Safe. -/
  | illegalConfiguration
  /-- Raised by `step`: `pc` holds 0xD to 0xF, which is never held (R20; I26). Safe. -/
  | reservedStateCode
  /-- Raised by `step`: RESULT holds 5 to 7, which is never produced (R78; I25). Safe. -/
  | reservedResultCode
  /-- Raised by `step`: a host access outside the 32-byte window (R54; I27). Safe. -/
  | accessOutsideWindow
  /-- Raised by `step`: a host access of a width other than 4 bytes (R54; I27). Safe. -/
  | accessBadWidth
  /-- Raised by `step`: a host access at an offset that is no multiple of 4 (R54; I27). Safe. -/
  | accessMisaligned
deriving DecidableEq, Repr

structure State where
  -- the engine's registers
  /-- The engine's control state, its program counter (R20). -/
  pc : BitVec 4
  /-- 0: the transaction was started by ACQUIRE; 1: by READ_SENSOR (R22). -/
  mode : BitVec 1
  /-- The number of line reads the wait in progress has made (R23). -/
  poll : Nat
  /-- The frame buffer (R24). -/
  buf : FrameBuffer
  /-- The index of the byte being received (R24). -/
  bidx : BitVec 3
  /-- The byte accumulator (R25). -/
  acc : Byte
  /-- The number of bits shifted into `acc` since the last stored byte (R25). -/
  nbit : BitVec 4
  /-- The level sampled by the last BIT_SAMPLE step (R25). -/
  sbit : BitVec 1
  -- the host-visible registers
  /-- STATUS.RESULT: the outcome of the last completed command (R27, R30). -/
  result : BitVec 3
  /-- FRAME = {FRAME_HI[7:0], FRAME_LO} (R31, R32, R34). -/
  frame : Frame
  /-- READING (R33). -/
  reading : Word
  -- the Line Driver
  /-- The pin direction last set by `LineSetDir` (R35). -/
  dir : Dir
  /-- The level last written by `LineWrite` (R35). -/
  drv : Level
  -- the model's own fields: configuration, environment and host
  /-- The configuration (R8, R58), which no step changes (R65; assumption log 1). -/
  cfg : Config.Params
  /-- The turns to come, the next first; when it is empty every further turn is the engine's (assumption log 3). -/
  turns : List Turn
  /-- The level script: what the environment returns to the next line reads (R15, R85; assumption log 2). -/
  script : List Level
  /-- The number of line reads made so far, the argument of the free level (assumption log 2). -/
  draws : Nat
  /-- The primitives issued so far, the latest first (R61; assumption log 6). -/
  trace : List Prim
  /-- The value the last host read returned (R107; assumption log 5). -/
  rdata : Word
deriving DecidableEq, Repr

/-- The machine right after reset: every register as the table of R40 says, the configuration of R8's "value" column, no
turn, no script, nothing issued and nothing read yet. -/
def State.reset : State where
  pc := StateCode.idle
  mode := 0#1
  poll := 0
  buf := ⟨0x00#8, 0x00#8, 0x00#8, 0x00#8, 0x00#8⟩
  bidx := 0#3
  acc := 0x00#8
  nbit := 0#4
  sbit := 0#1
  result := ResultCode.none
  frame := 0x0000000000#40
  reading := 0x00000000#32
  dir := .input
  drv := .high
  cfg := Config.defaults
  turns := []
  script := []
  draws := 0
  trace := []
  rdata := 0x00000000#32

end Sys2Proof.Machine
end

