-- ==== Sys2Proof/Machine/Flags.lean ====
section
/-! DEFINITION. The block's status indications. It has no condition codes (spec/10_state.md R27): BUSY is computed from `pc`
(R21), RESULT is written by acceptance, completion and failure alone, and `sbit` encodes the level sampled (R70). -/

namespace Sys2Proof.Machine

/-- `BUSY = 1` if and only if `pc ≠ IDLE` (R21). -/
def State.busy (s : State) : Bool :=
  s.pc != StateCode.idle

/-- BUSY as bit 0 of STATUS (R30). -/
def State.busyBit (s : State) : BitVec 1 :=
  if s.busy then 1#1 else 0#1

/-- A level as one bit: High = 1, Low = 0 (R70). -/
def levelBit : Level → BitVec 1
  | .high => 1#1
  | .low => 0#1

/-- The failures a wait raises (R135, R210, R211). -/
inductive FailKind where
  | noResponse
  | timeout
deriving DecidableEq, Repr

/-- The RESULT code of a failure (R78, R213). -/
def failCode : FailKind → BitVec 3
  | .noResponse => ResultCode.noResponse
  | .timeout => ResultCode.timeout

/-- RESULT is one of the five codes of R78. -/
def resultLegal (r : BitVec 3) : Bool :=
  decide (r ≤ ResultCode.checksumMismatch)

/-- `pc` is one of the thirteen codes of R80. -/
def pcLegal (pc : BitVec 4) : Bool :=
  decide (pc ≤ StateCode.done)

end Sys2Proof.Machine
end

