-- ==== Sys2Proof/Machine/FrameDecoder.lean ====
section
/-! DEFINITION. The Frame Decoder (spec/42_frame_decoder.md): a pure function from a 40-bit frame to a Reading or a checksum
mismatch, and the encoder of R179. -/

namespace Sys2Proof.Machine

/-- `Reading`: a signed and an unsigned 16-bit number of tenths (R17). -/
structure Reading where
  temperatureTenths : Int
  humidityTenths : Nat
deriving DecidableEq, Repr

/-- `Result<Reading, ChecksumMismatch>` (R177). -/
inductive DecodeResult where
  | ok (r : Reading)
  | checksumMismatch
deriving DecidableEq, Repr

/-- Byte 0, `b0 <- f[39:32]` (R170). -/
def humidityHigh (f : Frame) : Byte := f.extractLsb' 32 8

/-- Byte 1, `b1 <- f[31:24]` (R170). -/
def humidityLow (f : Frame) : Byte := f.extractLsb' 24 8

/-- Byte 2, `b2 <- f[23:16]` (R170). -/
def temperatureHigh (f : Frame) : Byte := f.extractLsb' 16 8

/-- Byte 3, `b3 <- f[15:8]` (R170). -/
def temperatureLow (f : Frame) : Byte := f.extractLsb' 8 8

/-- Byte 4, `b4 <- f[7:0]` (R170). -/
def checksumByte (f : Frame) : Byte := f.extractLsb' 0 8

/-- `{b0, b1, b2, b3, b4}` (R72). -/
def frameOfBytes (b0 b1 b2 b3 b4 : Byte) : Frame :=
  b0 ++ b1 ++ b2 ++ b3 ++ b4

/-- A 16-bit field, the high byte first (R52, R171, R172). -/
def field16 (hi lo : Byte) : BitVec 16 :=
  (hi.zeroExtend 16 <<< 8) ||| lo.zeroExtend 16

/-- The sign-magnitude value of a raw temperature field: bit 15 the sign, bits 14:0 the magnitude (R173). -/
def signMagnitude (raw : BitVec 16) : Int :=
  let mag : Int := ((raw.extractLsb' 0 15).toNat : Int)
  if raw.extractLsb' 15 1 = 1#1 then -mag else mag

/-- The low 8 bits of the sum of four bytes, taken over naturals (R175). -/
def expectedChecksum (b0 b1 b2 b3 : Byte) : Nat :=
  (b0.toNat + b1.toNat + b2.toNat + b3.toNat) % 256

/-- `Decode(f)` (R177). -/
def decodeFrame (f : Frame) : DecodeResult :=
  if expectedChecksum (humidityHigh f) (humidityLow f) (temperatureHigh f) (temperatureLow f)
      ≠ (checksumByte f).toNat then
    .checksumMismatch
  else
    .ok
      { temperatureTenths := signMagnitude (field16 (temperatureHigh f) (temperatureLow f))
        humidityTenths := (field16 (humidityHigh f) (humidityLow f)).toNat }

/-- The raw temperature field of a signed number of tenths (R179). -/
def rawTemperature (t : Int) : BitVec 16 :=
  if 0 ≤ t then BitVec.ofInt 16 t else 0x8000#16 ||| BitVec.ofInt 16 (-t)

/-- The frame of two 16-bit fields, with its correct checksum (R175, R179). -/
def frameOfFields (h raw : BitVec 16) : Frame :=
  let b0 : Byte := h.extractLsb' 8 8
  let b1 : Byte := h.extractLsb' 0 8
  let b2 : Byte := raw.extractLsb' 8 8
  let b3 : Byte := raw.extractLsb' 0 8
  frameOfBytes b0 b1 b2 b3 (BitVec.ofNat 8 (expectedChecksum b0 b1 b2 b3))

/-- `Encode(H, T)`, for H in 0 to 65535 and T in −32767 to 32767 (R179). -/
def encodeReading (r : Reading) : Frame :=
  frameOfFields (BitVec.ofNat 16 r.humidityTenths) (rawTemperature r.temperatureTenths)

/-- `{T[15:0] (two's complement), H[15:0]}`, the value of READING (R33, R81). -/
def readingWord (r : Reading) : Word :=
  BitVec.ofInt 16 r.temperatureTenths ++ BitVec.ofNat 16 r.humidityTenths

end Sys2Proof.Machine
end

