-- ==== Sys2Proof/Machine/Operands.lean ====
section
/-! DEFINITION. How operands are assembled from fixed fields (spec/30_encoding.md R81): the register views a host read
returns (spec/40_host_commands.md R107), the FRAME writes (R108), and the indexed frame buffer (spec/10_state.md R24). -/

namespace Sys2Proof.Machine

/-- STATUS: `{20'b0, pc[3:0], 4'b0, RESULT[2:0], BUSY}` (R30, R107). -/
def State.statusWord (s : State) : Word :=
  0#20 ++ s.pc ++ 0#4 ++ s.result ++ s.busyBit

/-- FRAME_LO: FRAME bits 31:0 (R31, R107). -/
def State.frameLoWord (s : State) : Word :=
  s.frame.extractLsb' 0 32

/-- FRAME_HI: FRAME bits 39:32, zero-extended (R32, R107). -/
def State.frameHiWord (s : State) : Word :=
  (s.frame.extractLsb' 32 8).zeroExtend 32

/-- `FRAME bits 31:0 <- v` (R108). -/
def withFrameLo (f : Frame) (v : Word) : Frame :=
  f.extractLsb' 32 8 ++ v

/-- `FRAME bits 39:32 <- v[7:0]` (R108). -/
def withFrameHi (f : Frame) (v : Word) : Frame :=
  v.extractLsb' 0 8 ++ f.extractLsb' 0 32

/-- `buf[i] <- v` (R12, R24); there is no byte at an index over 4. -/
def FrameBuffer.store (b : FrameBuffer) (i : BitVec 3) (v : Byte) : Option FrameBuffer :=
  match i.toNat with
  | 0 => some { b with b0 := v }
  | 1 => some { b with b1 := v }
  | 2 => some { b with b2 := v }
  | 3 => some { b with b3 := v }
  | 4 => some { b with b4 := v }
  | _ => none

/-- `buf[i]` (R12, R24). -/
def FrameBuffer.load (b : FrameBuffer) (i : BitVec 3) : Option Byte :=
  match i.toNat with
  | 0 => some b.b0
  | 1 => some b.b1
  | 2 => some b.b2
  | 3 => some b.b3
  | 4 => some b.b4
  | _ => none

/-- `{buf[0], buf[1], buf[2], buf[3], buf[4]}` (R72, R144). -/
def FrameBuffer.frame (b : FrameBuffer) : Frame :=
  frameOfBytes b.b0 b.b1 b.b2 b.b3 b.b4

/-- Every byte 0x00 (R102). -/
def FrameBuffer.zero : FrameBuffer :=
  ⟨0x00#8, 0x00#8, 0x00#8, 0x00#8, 0x00#8⟩

/-- `((acc << 1) | sbit)[7:0]` (R143). -/
def shiftIn (acc : Byte) (bit : BitVec 1) : Byte :=
  (acc <<< 1) ||| bit.zeroExtend 8

end Sys2Proof.Machine
end

