-- ==== Sys2Proof/Machine/Parameters.lean ====
section
/-! DEFINITION. The legal ranges of the parameters (spec/00_scope.md R8; spec/70_reset_and_hazards.md R242) and the bounds of
waits (R135). -/

namespace Sys2Proof.Machine

/-- A bound of a wait is at least one read, or `UNBOUNDED` (R8, R14). -/
def boundLegal : Config.Bound → Bool
  | .reads n => decide (1 ≤ n)
  | .unbounded => true

/-- Every parameter lies in its legal range of R8. `T_SETTLE_US` and `T_TAIL_US` have no range of their own there but the
timing conditions of R253 and R254, which do not change what the engine does (assumption log 11). -/
def configLegal (p : Config.Params) : Bool :=
  decide (1 ≤ p.tIdleMs) && decide (1 ≤ p.tStartLowMs) && decide (p.tStartLowMs ≤ 10)
    && decide (1 ≤ p.hsPolls) && boundLegal p.waitPolls

/-- `bound ≠ UNBOUNDED and poll >= bound` (R135). -/
def exhausted (bound : Config.Bound) (poll : Nat) : Bool :=
  match bound with
  | .reads n => decide (n ≤ poll)
  | .unbounded => false

/-- The bound of the acknowledgement wait: `HS_POLLS`, which is always a number (R136). -/
def ackBound (p : Config.Params) : Config.Bound :=
  .reads p.hsPolls

end Sys2Proof.Machine
end

