-- ==== Sys2Proof/Machine/Ops.lean ====
section
/-! DEFINITION. The named operations the meanings share: the Line Driver and Timebase primitives
(spec/43_line_timebase.md), acceptance of a transaction (spec/40_host_commands.md R102), failure (spec/60_exceptions.md
R213), one poll iteration of a wait (spec/41_protocol_engine.md R135), decoding a frame into RESULT and READING (R103,
R144), a host read's reply and reset (spec/70_reset_and_hazards.md R240). -/

namespace Sys2Proof.Machine

/-- What a meaning answers. -/
abbrev Out := Host.Outcome State Fault Refusal

/-- The next state, where there is one. -/
def next? : Out → Option State
  | .next s => some s
  | .fault _ => none
  | .refused _ => none

/-- The primitive goes to its collaborator after those issued before it (R61). -/
def issue (p : Prim) (s : State) : State :=
  { s with trace := p :: s.trace }

/-- `LineSetDir(d)`: `dir <- d` (R191). -/
def lineSetDir (d : Dir) (s : State) : State :=
  issue (.setDir d) { s with dir := d }

/-- `LineWrite(l)`: `drv <- l`; valid only while `dir = Output` (R192). The actions after it are `k`. -/
def lineWrite (l : Level) (s : State) (k : State → Out) : Out :=
  if s.dir = .output then k (issue (.write l) { s with drv := l })
  else .fault .lineWriteWhileInput

/-- The level the environment gives the next read: the script's next, or the free level (R15, R193). -/
def State.nextLevel (s : State) : Level :=
  match s.script with
  | [] => Config.freeLevel s.draws
  | l :: _ => l

/-- A read takes its level from the script and changes nothing else (R57, R193). -/
def tookLevel (s : State) : State :=
  issue (.read s.nextLevel) { s with script := s.script.tail, draws := s.draws + 1 }

/-- `LineRead()`: valid only while `dir = Input` (R193). The actions after it, given the level, are `k`. -/
def lineRead (s : State) (k : Level → State → Out) : Out :=
  if s.dir = .input then k s.nextLevel (tookLevel s)
  else .fault .lineReadWhileOutput

/-- `DelayUs(n)`: blocks for at least n µs; no state changes (R195). -/
def delayUs (n : Nat) (s : State) : State :=
  issue (.delayUs n) s

/-- `DelayMs(n)`: blocks for at least n ms; no state changes (R195). -/
def delayMs (n : Nat) (s : State) : State :=
  issue (.delayMs n) s

/-- `pc <- S` (R12). -/
def goTo (c : BitVec 4) (s : State) : State :=
  { s with pc := c }

/-- `poll <- 0; pc <- W`: entry to a wait (R23, R134). -/
def enterWait (c : BitVec 4) (s : State) : State :=
  { s with poll := 0, pc := c }

/-- `raise Fail(k)`: `RESULT <- code(k); pc <- IDLE` and nothing else (R213). This is the block's only exception entry:
no pc is saved, there is no vector, and there is no return operation (R217, R218). -/
def raiseFail (k : FailKind) (s : State) : State :=
  { s with result := failCode k, pc := StateCode.idle }

/-- One poll iteration of a wait (R135). -/
def pollOnce (target : Level) (bound : Config.Bound) (kind : FailKind) (following : BitVec 4) (s : State) : Out :=
  lineRead s fun lv s1 =>
    let s2 := { s1 with poll := s1.poll + 1 }
    if lv = target then .next (enterWait following s2)
    else if exhausted bound s2.poll then .next (raiseFail kind s2)
    else .next (delayUs s2.cfg.pollUs s2)

/-- Acceptance of ACQUIRE (`m = 0`) or READ_SENSOR (`m = 1`) by an idle block (R102, R104). -/
def acceptTransaction (m : BitVec 1) (s : State) : State :=
  { s with
    mode := m
    poll := 0
    bidx := 0#3
    acc := 0x00#8
    nbit := 0#4
    sbit := 0#1
    buf := FrameBuffer.zero
    result := ResultCode.none
    pc := StateCode.startHigh }

/-- A command has its effect only while `BUSY = 0`; while `BUSY = 1` it is ignored (R106). -/
def whenIdle (s : State) (effect : State) : Out :=
  if s.busy then .next s else .next effect

/-- RESULT, and READING on a match, from `Decode(f)` (R103, R144). -/
def recordDecode (f : Frame) (s : State) : State :=
  match decodeFrame f with
  | .ok r => { s with reading := readingWord r, result := ResultCode.success }
  | .checksumMismatch => { s with result := ResultCode.checksumMismatch }

/-- A host read returns `v` and changes nothing else (R56, R107). -/
def reply (v : Word) (s : State) : State :=
  { s with rdata := v }

/-- Reset: every piece of the block's state to its value of R40 in one step (R240). The configuration, the turns, the
environment and what was issued and read before are not the block's and stay (assumption log 9). -/
def resetBlock (s : State) : State :=
  { State.reset with
    cfg := s.cfg
    turns := s.turns
    script := s.script
    draws := s.draws
    trace := s.trace
    rdata := s.rdata }

/-- What the line carries from the block: `drv` while `dir = Output`, nothing while `dir = Input` (R191). -/
def State.driven (s : State) : Option Level :=
  match s.dir with
  | .output => some s.drv
  | .input => none

end Sys2Proof.Machine
end

