-- ==== Sys2Proof/Machine/HostCommands.lean ====
section
/-! DEFINITION. The meanings of the CMD rows: what a command does when its code is written to CTRL
(spec/40_host_commands.md R101 to R106). -/

namespace Sys2Proof.Machine

/-- NOP: no effect, BUSY or not (R101). -/
def execNop (s : State) : Out :=
  .next s

/-- ACQUIRE (R102): starts a transaction that publishes the raw frame; ignored while BUSY. -/
def execAcquire (s : State) : Out :=
  whenIdle s (acceptTransaction 0#1 s)

/-- DECODE (R103): `Decode(FRAME)` at once, with no engine step; ignored while BUSY. -/
def execDecode (s : State) : Out :=
  whenIdle s (recordDecode s.frame s)

/-- READ_SENSOR (R104): starts a transaction that decodes the frame it received; ignored while BUSY. -/
def execReadSensor (s : State) : Out :=
  whenIdle s (acceptTransaction 1#1 s)

/-- RESERVED_CMD 0x04 to 0x07: ignored (R105). -/
def execReservedCmd04 (_code : BitVec 8) (s : State) : Out :=
  .next s

/-- RESERVED_CMD 0x08 to 0x0F: ignored (R105). -/
def execReservedCmd08 (_code : BitVec 8) (s : State) : Out :=
  .next s

/-- RESERVED_CMD 0x10 to 0x1F: ignored (R105). -/
def execReservedCmd10 (_code : BitVec 8) (s : State) : Out :=
  .next s

/-- RESERVED_CMD 0x20 to 0x3F: ignored (R105). -/
def execReservedCmd20 (_code : BitVec 8) (s : State) : Out :=
  .next s

/-- RESERVED_CMD 0x40 to 0x7F: ignored (R105). -/
def execReservedCmd40 (_code : BitVec 8) (s : State) : Out :=
  .next s

/-- RESERVED_CMD 0x80 to 0xFF: ignored (R105). -/
def execReservedCmd80 (_code : BitVec 8) (s : State) : Out :=
  .next s

end Sys2Proof.Machine
end

