-- ==== Sys2Proof/Machine/HostReads.lean ====
section
/-! DEFINITION. The meanings of the HOST_RD rows: what a host read of each offset returns (spec/40_host_commands.md R107). -/

namespace Sys2Proof.Machine

/-- RD CTRL: 0 (R29, R107). -/
def execRdCtrl (s : State) : Out :=
  .next (reply 0x00000000#32 s)

/-- RD STATUS (R30, R107). -/
def execRdStatus (s : State) : Out :=
  .next (reply s.statusWord s)

/-- RD FRAME_LO (R31, R107). -/
def execRdFrameLo (s : State) : Out :=
  .next (reply s.frameLoWord s)

/-- RD FRAME_HI (R32, R107). -/
def execRdFrameHi (s : State) : Out :=
  .next (reply s.frameHiWord s)

/-- RD READING (R33, R107). -/
def execRdReading (s : State) : Out :=
  .next (reply s.reading s)

/-- RD RESERVED 0x14: 0 (R107). -/
def execRdReserved14 (s : State) : Out :=
  .next (reply 0x00000000#32 s)

/-- RD RESERVED 0x18: 0 (R107). -/
def execRdReserved18 (s : State) : Out :=
  .next (reply 0x00000000#32 s)

/-- RD RESERVED 0x1C: 0 (R107). -/
def execRdReserved1C (s : State) : Out :=
  .next (reply 0x00000000#32 s)

end Sys2Proof.Machine
end

