-- ==== Sys2Proof/Machine/HostWrites.lean ====
section
/-! DEFINITION. The meanings of the HOST_WR rows: what a host write of each offset does (spec/40_host_commands.md R100,
R108, R109). -/

namespace Sys2Proof.Machine

/-- WR CTRL: the command whose code is in bits 7:0 has its effect (R29, R76, R77). -/
def execWrCtrl (v : Word) (s : State) : Out :=
  let c := commandByte v
  if c = CmdCode.nop then execNop s
  else if c = CmdCode.acquire then execAcquire s
  else if c = CmdCode.decode then execDecode s
  else if c = CmdCode.readSensor then execReadSensor s
  else if codeInRow c 0x04#8 0xFC#8 then execReservedCmd04 c s
  else if codeInRow c 0x08#8 0xF8#8 then execReservedCmd08 c s
  else if codeInRow c 0x10#8 0xF0#8 then execReservedCmd10 c s
  else if codeInRow c 0x20#8 0xE0#8 then execReservedCmd20 c s
  else if codeInRow c 0x40#8 0xC0#8 then execReservedCmd40 c s
  else execReservedCmd80 c s

/-- WR STATUS: no effect (R30, R109). -/
def execWrStatus (_v : Word) (s : State) : Out :=
  .next s

/-- WR FRAME_LO: `FRAME bits 31:0 <- v`; ignored while BUSY (R108). -/
def execWrFrameLo (v : Word) (s : State) : Out :=
  whenIdle s { s with frame := withFrameLo s.frame v }

/-- WR FRAME_HI: `FRAME bits 39:32 <- v[7:0]`; ignored while BUSY (R108). -/
def execWrFrameHi (v : Word) (s : State) : Out :=
  whenIdle s { s with frame := withFrameHi s.frame v }

/-- WR READING: no effect (R33, R109). -/
def execWrReading (_v : Word) (s : State) : Out :=
  .next s

/-- WR RESERVED 0x14: no effect (R109). -/
def execWrReserved14 (_v : Word) (s : State) : Out :=
  .next s

/-- WR RESERVED 0x18: no effect (R109). -/
def execWrReserved18 (_v : Word) (s : State) : Out :=
  .next s

/-- WR RESERVED 0x1C: no effect (R109). -/
def execWrReserved1C (_v : Word) (s : State) : Out :=
  .next s

end Sys2Proof.Machine
end

