-- ==== Sys2Proof/Machine/ProtocolEngine.lean ====
section
/-! DEFINITION. The meanings of the STATE rows: one step of each state of the Protocol Engine
(spec/41_protocol_engine.md R131 to R144), its actions in the order written. -/

namespace Sys2Proof.Machine

/-- IDLE: no action (R131). -/
def execIdle (s : State) : Out :=
  .next s

/-- START_HIGH (R132). -/
def execStartHigh (s : State) : Out :=
  lineWrite .high (lineSetDir .output s) fun s1 =>
    .next (goTo StateCode.startLow (delayMs s1.cfg.tIdleMs s1))

/-- START_LOW (R133). -/
def execStartLow (s : State) : Out :=
  lineWrite .low s fun s1 =>
    .next (goTo StateCode.startRelease (delayMs s1.cfg.tStartLowMs s1))

/-- START_RELEASE (R134). -/
def execStartRelease (s : State) : Out :=
  lineWrite .high s fun s1 =>
    .next (enterWait StateCode.waitAckLow (lineSetDir .input (delayUs s1.cfg.tReleaseUs s1)))

/-- WAIT_ACK_LOW (R136). -/
def execWaitAckLow (s : State) : Out :=
  pollOnce .low (ackBound s.cfg) .noResponse StateCode.waitHsHigh s

/-- WAIT_HS_HIGH (R137). -/
def execWaitHsHigh (s : State) : Out :=
  pollOnce .high s.cfg.waitPolls .timeout StateCode.waitHsLow s

/-- WAIT_HS_LOW (R138). -/
def execWaitHsLow (s : State) : Out :=
  pollOnce .low s.cfg.waitPolls .timeout StateCode.waitBitHigh s

/-- WAIT_BIT_HIGH (R139). -/
def execWaitBitHigh (s : State) : Out :=
  pollOnce .high s.cfg.waitPolls .timeout StateCode.bitSample s

/-- BIT_SAMPLE (R140): one read decides the bit. -/
def execBitSample (s : State) : Out :=
  lineRead (delayUs s.cfg.tSettleUs s) fun lv s1 =>
    let s2 := { s1 with sbit := levelBit lv }
    if s2.sbit = 1#1 then .next (goTo StateCode.bitTail s2)
    else .next (goTo StateCode.bitCommit s2)

/-- BIT_TAIL (R141). -/
def execBitTail (s : State) : Out :=
  .next (enterWait StateCode.waitBitLow (delayUs s.cfg.tTailUs s))

/-- WAIT_BIT_LOW (R142). -/
def execWaitBitLow (s : State) : Out :=
  pollOnce .low s.cfg.waitPolls .timeout StateCode.bitCommit s

/-- The last lines of BIT_COMMIT: DONE after the fifth byte, else the next bit (R143). -/
def afterCommit (s : State) : State :=
  if s.bidx = 5#3 then goTo StateCode.done s
  else enterWait StateCode.waitBitHigh s

/-- BIT_COMMIT (R143). A full byte with no place in the buffer faults (assumption log 10); outside the ranges of R24 and R25
the pseudocode is followed at the registers' widths (assumption log 15). -/
def execBitCommit (s : State) : Out :=
  let a := shiftIn s.acc s.sbit
  let n := s.nbit + 1#4
  if n = 8#4 then
    match s.buf.store s.bidx a with
    | some b => .next (afterCommit { s with buf := b, bidx := s.bidx + 1#3, acc := 0x00#8, nbit := 0#4 })
    | none => .fault .bufferIndexOutOfRange
  else .next (afterCommit { s with acc := a, nbit := n })

/-- DONE (R144): publishes the frame; in READ_SENSOR mode decodes it. -/
def execDone (s : State) : Out :=
  let f := s.buf.frame
  let s1 := { s with frame := f }
  let s2 := if s1.mode = 0#1 then { s1 with result := ResultCode.success } else recordDecode f s1
  .next (goTo StateCode.idle s2)

end Sys2Proof.Machine
end

