-- ==== Sys2Proof/Machine/Dispatch.lean ====
section
/-! DEFINITION. One arm per constructor of Instr: which meaning an instruction has. -/

namespace Sys2Proof.Machine

def exec (i : Instr) (s : State) : Host.Outcome State Fault Refusal :=
  match i with
  | .nop => Sys2Proof.Machine.execNop s
  | .acquire => Sys2Proof.Machine.execAcquire s
  | .decode => Sys2Proof.Machine.execDecode s
  | .readSensor => Sys2Proof.Machine.execReadSensor s
  | .reservedCmd04 code => Sys2Proof.Machine.execReservedCmd04 code s
  | .reservedCmd08 code => Sys2Proof.Machine.execReservedCmd08 code s
  | .reservedCmd10 code => Sys2Proof.Machine.execReservedCmd10 code s
  | .reservedCmd20 code => Sys2Proof.Machine.execReservedCmd20 code s
  | .reservedCmd40 code => Sys2Proof.Machine.execReservedCmd40 code s
  | .reservedCmd80 code => Sys2Proof.Machine.execReservedCmd80 code s
  | .idle => Sys2Proof.Machine.execIdle s
  | .startHigh => Sys2Proof.Machine.execStartHigh s
  | .startLow => Sys2Proof.Machine.execStartLow s
  | .startRelease => Sys2Proof.Machine.execStartRelease s
  | .waitAckLow => Sys2Proof.Machine.execWaitAckLow s
  | .waitHsHigh => Sys2Proof.Machine.execWaitHsHigh s
  | .waitHsLow => Sys2Proof.Machine.execWaitHsLow s
  | .waitBitHigh => Sys2Proof.Machine.execWaitBitHigh s
  | .bitSample => Sys2Proof.Machine.execBitSample s
  | .bitTail => Sys2Proof.Machine.execBitTail s
  | .waitBitLow => Sys2Proof.Machine.execWaitBitLow s
  | .bitCommit => Sys2Proof.Machine.execBitCommit s
  | .done => Sys2Proof.Machine.execDone s
  | .rdCtrl => Sys2Proof.Machine.execRdCtrl s
  | .rdStatus => Sys2Proof.Machine.execRdStatus s
  | .rdFrameLo => Sys2Proof.Machine.execRdFrameLo s
  | .rdFrameHi => Sys2Proof.Machine.execRdFrameHi s
  | .rdReading => Sys2Proof.Machine.execRdReading s
  | .rdReserved14 => Sys2Proof.Machine.execRdReserved14 s
  | .rdReserved18 => Sys2Proof.Machine.execRdReserved18 s
  | .rdReserved1C => Sys2Proof.Machine.execRdReserved1C s
  | .wrCtrl v => Sys2Proof.Machine.execWrCtrl v s
  | .wrStatus v => Sys2Proof.Machine.execWrStatus v s
  | .wrFrameLo v => Sys2Proof.Machine.execWrFrameLo v s
  | .wrFrameHi v => Sys2Proof.Machine.execWrFrameHi v s
  | .wrReading v => Sys2Proof.Machine.execWrReading v s
  | .wrReserved14 v => Sys2Proof.Machine.execWrReserved14 v s
  | .wrReserved18 v => Sys2Proof.Machine.execWrReserved18 v s
  | .wrReserved1C v => Sys2Proof.Machine.execWrReserved1C v s

end Sys2Proof.Machine
end

