-- ==== Sys2Proof/Machine/Fetch.lean ====
section
/-! DEFINITION. Which instruction the next step runs (spec/20_memory.md R60; spec/40_host_commands.md R100): the next turn's
host access, or the engine's state. -/

namespace Sys2Proof.Machine

/-- What the next step does. -/
inductive Fetched where
  /-- It runs this instruction at this state. -/
  | instr (i : Instr) (s : State)
  /-- It resets the block at this state. -/
  | blockReset (s : State)
  /-- There is no such instruction. -/
  | reject (r : Reject)
deriving DecidableEq, Repr

/-- A host access as a code: its offset from `REG_BASE` (R58, R100). -/
def accessCode (base : Nat) : Access → Except Reject Code
  | .memRead addr width => if addr < base then .error .outsideWindow else .ok (.read (addr - base) width)
  | .memWrite addr width v => if addr < base then .error .outsideWindow else .ok (.write (addr - base) width v)

/-- The instruction a host access is. -/
def decodeAccess (base : Nat) (a : Access) : Except Reject Instr :=
  match accessCode base a with
  | .ok c => decode c
  | .error r => .error r

/-- The instruction read, to run at a state. -/
def runAt (d : Except Reject Instr) (s : State) : Fetched :=
  match d with
  | .ok i => .instr i s
  | .error r => .reject r

/-- `RD 0x04` (R85). -/
def readStatusAccess (base : Nat) : Access :=
  .memRead (base + Offset.status) 4

/-- The turns after one read of WAITIDLE: done once bit 0 of the value read is 0, else read again, after one engine step
(R85; assumption log 4). -/
def afterWaitIdle (s : State) (rest : List Turn) : List Turn :=
  if s.statusWord.extractLsb' 0 1 = 0#1 then rest else .engine :: .waitIdle :: rest

/-- The next turn, taken off the list. An engine turn runs the state `pc` names; a host turn runs its access (R60). -/
def fetch (s : State) : Fetched :=
  match s.turns with
  | [] => runAt (decode (.state s.pc)) s
  | .engine :: rest => runAt (decode (.state s.pc)) { s with turns := rest }
  | .access a :: rest => runAt (decodeAccess s.cfg.regBase a) { s with turns := rest }
  | .waitIdle :: rest =>
    runAt (decodeAccess s.cfg.regBase (readStatusAccess s.cfg.regBase)) { s with turns := afterWaitIdle s rest }
  | .reset :: rest => .blockReset { s with turns := rest }

/-- Why the model refuses a state before any turn: its configuration (I28), or a code never held (I26, I25). -/
def illFormed (s : State) : Option Refusal :=
  if configLegal s.cfg = false then some .illegalConfiguration
  else if pcLegal s.pc = false then some .reservedStateCode
  else if resultLegal s.result = false then some .reservedResultCode
  else none

/-- The refusal of a rejected code. -/
def refusalOf : Reject → Refusal
  | .reservedStateCode => .reservedStateCode
  | .outsideWindow => .accessOutsideWindow
  | .badWidth => .accessBadWidth
  | .misaligned => .accessMisaligned

/-- The host access a code is performed by, for a window at `base`: a command is a write of CTRL (R76). A state code is no
access. -/
def accessOfCode (base : Nat) : Code → Option Access
  | .command v => some (.memWrite (base + Offset.ctrl) 4 v)
  | .state _ => none
  | .read off width => some (.memRead (base + off) width)
  | .write off width v => some (.memWrite (base + off) width v)

/-- The state with a code placed where the next step fetches: an access as the next turn, or a state in `pc` with the
engine's turn next (assumption log 8). -/
def placeCode (c : Code) (s : State) : State :=
  match c, accessOfCode s.cfg.regBase c with
  | .state p, _ => { s with pc := p, turns := .engine :: s.turns }
  | _, some a => { s with turns := .access a :: s.turns }
  | _, none => s

end Sys2Proof.Machine
end

