-- ==== Sys2Proof/Machine/Step.lean ====
section
/-! DEFINITION. One step of the machine: one engine step, one host access or one reset (spec/00_scope.md R13;
spec/20_memory.md R60; spec/70_reset_and_hazards.md R240). -/

namespace Sys2Proof.Machine

def step (s : State) : Host.Outcome State Fault Refusal :=
  match illFormed s with
  | some r => .refused r
  | none =>
    match fetch s with
    | .instr i s' => exec i s'
    | .blockReset s' => .next (resetBlock s')
    | .reject r => .refused (refusalOf r)

/-- The instruction of a table word placed where `step` fetches its next instruction (assumption log 8). -/
def State.withFetchWord (s : State) (nbits w : Nat) : State :=
  placeCode (tableCode nbits w) s

end Sys2Proof.Machine
end

