-- ==== Sys2Proof/Laws/Decode.lean ====
section
/-! SUPPORT. The decoder's small lemmas: the command byte of a code's value, and which row each command code has. -/

namespace Sys2Proof

@[simp] theorem commandByte_commandValue (c : BitVec 8) : commandByte (commandValue c) = c := by
  revert c; decide

theorem decode_commandValue (c : BitVec 8) : decode (.command (commandValue c)) = .ok (decodeCommand c) := by
  simp [decode]

theorem decodeCommand_reservedCmd04 {c : BitVec 8} (h : codeInRow c 0x04#8 0xFC#8 = true) :
    decodeCommand c = .reservedCmd04 c := by
  revert h; revert c; decide

theorem decodeCommand_reservedCmd08 {c : BitVec 8} (h : codeInRow c 0x08#8 0xF8#8 = true) :
    decodeCommand c = .reservedCmd08 c := by
  revert h; revert c; decide

theorem decodeCommand_reservedCmd10 {c : BitVec 8} (h : codeInRow c 0x10#8 0xF0#8 = true) :
    decodeCommand c = .reservedCmd10 c := by
  revert h; revert c; decide

theorem decodeCommand_reservedCmd20 {c : BitVec 8} (h : codeInRow c 0x20#8 0xE0#8 = true) :
    decodeCommand c = .reservedCmd20 c := by
  revert h; revert c; decide

theorem decodeCommand_reservedCmd40 {c : BitVec 8} (h : codeInRow c 0x40#8 0xC0#8 = true) :
    decodeCommand c = .reservedCmd40 c := by
  revert h; revert c; decide

theorem decodeCommand_reservedCmd80 {c : BitVec 8} (h : codeInRow c 0x80#8 0x80#8 = true) :
    decodeCommand c = .reservedCmd80 c := by
  revert h; revert c; decide

/-- Every command code is decoded to a command, and only to the row it lies in. -/
theorem decodeCommand_wellFormed (c : BitVec 8) : (decodeCommand c).wellFormed = true := by
  revert c; decide

theorem checkAccess_ok_iff (off width : Nat) : checkAccess off width = .ok () ↔ off % 4 = 0 ∧ off ≤ 0x1C ∧ width = 4 := by
  unfold checkAccess
  split
  · simp; omega
  · split
    · simp; omega
    · split
      · simp; omega
      · simp; omega

end Sys2Proof
end

