-- ==== Sys2Proof/Laws/PerInstr.lean ====
section
/-! SUPPORT. Statements made for each instruction: a family, and one lemma per constructor of Instr. -/

namespace Sys2Proof.Laws.RoundTrip

/-- A well-formed instruction is read back from its own code: no bit of an operand is dropped. -/
def Statement (i : Instr) : Prop :=
  i.wellFormed = true → Sys2Proof.decode (encode i) = .ok i

theorem nop : Statement .nop := fun _ => rfl

theorem acquire : Statement .acquire := fun _ => rfl

theorem decode : Statement .decode := fun _ => rfl

theorem readSensor : Statement .readSensor := fun _ => rfl

theorem reservedCmd04 (code : BitVec 8) : Statement (.reservedCmd04 code) := fun h => by
  rw [encode, decode_commandValue, decodeCommand_reservedCmd04 h]

theorem reservedCmd08 (code : BitVec 8) : Statement (.reservedCmd08 code) := fun h => by
  rw [encode, decode_commandValue, decodeCommand_reservedCmd08 h]

theorem reservedCmd10 (code : BitVec 8) : Statement (.reservedCmd10 code) := fun h => by
  rw [encode, decode_commandValue, decodeCommand_reservedCmd10 h]

theorem reservedCmd20 (code : BitVec 8) : Statement (.reservedCmd20 code) := fun h => by
  rw [encode, decode_commandValue, decodeCommand_reservedCmd20 h]

theorem reservedCmd40 (code : BitVec 8) : Statement (.reservedCmd40 code) := fun h => by
  rw [encode, decode_commandValue, decodeCommand_reservedCmd40 h]

theorem reservedCmd80 (code : BitVec 8) : Statement (.reservedCmd80 code) := fun h => by
  rw [encode, decode_commandValue, decodeCommand_reservedCmd80 h]

theorem idle : Statement .idle := fun _ => rfl

theorem startHigh : Statement .startHigh := fun _ => rfl

theorem startLow : Statement .startLow := fun _ => rfl

theorem startRelease : Statement .startRelease := fun _ => rfl

theorem waitAckLow : Statement .waitAckLow := fun _ => rfl

theorem waitHsHigh : Statement .waitHsHigh := fun _ => rfl

theorem waitHsLow : Statement .waitHsLow := fun _ => rfl

theorem waitBitHigh : Statement .waitBitHigh := fun _ => rfl

theorem bitSample : Statement .bitSample := fun _ => rfl

theorem bitTail : Statement .bitTail := fun _ => rfl

theorem waitBitLow : Statement .waitBitLow := fun _ => rfl

theorem bitCommit : Statement .bitCommit := fun _ => rfl

theorem done : Statement .done := fun _ => rfl

theorem rdCtrl : Statement .rdCtrl := fun _ => rfl

theorem rdStatus : Statement .rdStatus := fun _ => rfl

theorem rdFrameLo : Statement .rdFrameLo := fun _ => rfl

theorem rdFrameHi : Statement .rdFrameHi := fun _ => rfl

theorem rdReading : Statement .rdReading := fun _ => rfl

theorem rdReserved14 : Statement .rdReserved14 := fun _ => rfl

theorem rdReserved18 : Statement .rdReserved18 := fun _ => rfl

theorem rdReserved1C : Statement .rdReserved1C := fun _ => rfl

theorem wrCtrl (v : Word) : Statement (.wrCtrl v) := fun _ => rfl

theorem wrStatus (v : Word) : Statement (.wrStatus v) := fun _ => rfl

theorem wrFrameLo (v : Word) : Statement (.wrFrameLo v) := fun _ => rfl

theorem wrFrameHi (v : Word) : Statement (.wrFrameHi v) := fun _ => rfl

theorem wrReading (v : Word) : Statement (.wrReading v) := fun _ => rfl

theorem wrReserved14 (v : Word) : Statement (.wrReserved14 v) := fun _ => rfl

theorem wrReserved18 (v : Word) : Statement (.wrReserved18 v) := fun _ => rfl

theorem wrReserved1C (v : Word) : Statement (.wrReserved1C v) := fun _ => rfl

end Sys2Proof.Laws.RoundTrip
end

