-- ==== Sys2Proof/Machine/LevelScript.lean ====
section
/-! DEFINITION. Level scripts of successful transactions (spec/41_protocol_engine.md R145, R146; spec/30_encoding.md R73):
which levels the environment returns to the reads of a transaction that receives a given frame. -/

namespace Sys2Proof.Machine

/-- The other level. -/
def otherLevel : Level → Level
  | .high => .low
  | .low => .high

/-- The frame's bits in transmission order: bit k is frame bit `39 − k` (R73). -/
def frameBits (f : Frame) : List Bool :=
  (List.range 40).map fun k => f.getLsbD (39 - k)

/-- The levels one wait reads: `n` of the other level, then the target (R135, R146). -/
def waitLevels (n : Nat) (target : Level) : List Level :=
  List.replicate n (otherLevel target) ++ [target]

/-- How many reads of the other level the two waits of one bit make before their target. -/
structure BitWaits where
  rise : Nat
  fall : Nat
deriving DecidableEq, Repr

/-- The levels read for one bit: WAIT_BIT_HIGH, the sample, and after a 1 WAIT_BIT_LOW (R146). -/
def bitLevels (w : BitWaits) (bit : Bool) : List Level :=
  waitLevels w.rise .high ++ (if bit then .high :: waitLevels w.fall .low else [.low])

/-- The engine steps one bit takes (R130). -/
def bitSteps (w : BitWaits) (bit : Bool) : Nat :=
  (w.rise + 1) + 1 + (if bit then 1 + (w.fall + 1) else 0) + 1

/-- The levels of the bits given, each with its waits. -/
def dataLevels : List BitWaits → List Bool → List Level
  | w :: ws, b :: bs => bitLevels w b ++ dataLevels ws bs
  | _, _ => []

/-- The engine steps of the bits given. -/
def dataSteps : List BitWaits → List Bool → Nat
  | w :: ws, b :: bs => bitSteps w b + dataSteps ws bs
  | _, _ => 0

/-- The levels a successful transaction reads: acknowledgement, handshake high, handshake low, 40 bits (R146). -/
def transactionLevels (ack high low : Nat) (ws : List BitWaits) (f : Frame) : List Level :=
  waitLevels ack .low ++ waitLevels high .high ++ waitLevels low .low ++ dataLevels ws (frameBits f)

/-- The engine steps it takes: three start steps, the handshake, the bits and DONE (R130). -/
def transactionSteps (ack high low : Nat) (ws : List BitWaits) (f : Frame) : Nat :=
  3 + (ack + 1) + (high + 1) + (low + 1) + dataSteps ws (frameBits f) + 1

/-- Bits that need no waiting. -/
def noWaits : List BitWaits :=
  List.replicate 40 ⟨0, 0⟩

/-- The script of the frame without waits, the shortest that yields it: `3 + 80 + popcount(f)` levels (R146; that none is
shorter is claimed in ShortestScriptLength). -/
def shortestScript (f : Frame) : List Level :=
  transactionLevels 0 0 0 noWaits f

end Sys2Proof.Machine
end

