-- ==== Sys2Proof/Machine/Outcomes.lean ====
section
/-! DEFINITION. The source's result types, read from the register view at the end of a transaction (spec/30_encoding.md R79;
spec/40_host_commands.md R112; spec/00_scope.md R17). -/

namespace Sys2Proof.Machine

/-- `ProtocolOutcome` of `acquire()`. -/
inductive ProtocolOutcome where
  | success (f : Frame)
  | noResponse
  | timeout
deriving DecidableEq, Repr

/-- `Result<Reading, AcquisitionError>` of `readSensor()`. -/
inductive ReadOutcome where
  | ok (r : Reading)
  | noResponse
  | timeout
  | checksumMismatch
deriving DecidableEq, Repr

/-- The Reading that the READING register holds: bits 15:0 unsigned, bits 31:16 in two's complement (R33). -/
def readingOfWord (w : Word) : Reading where
  temperatureTenths := (w.extractLsb' 16 16).toInt
  humidityTenths := (w.extractLsb' 0 16).toNat

/-- The outcome of an ACQUIRE transaction that has ended; none while it runs (R112). -/
def State.acquireOutcome (s : State) : Option ProtocolOutcome :=
  if s.busy then none
  else if s.result = ResultCode.success then some (.success s.frame)
  else if s.result = ResultCode.noResponse then some .noResponse
  else if s.result = ResultCode.timeout then some .timeout
  else none

/-- The outcome of a READ_SENSOR transaction that has ended; none while it runs (R112). -/
def State.readOutcome (s : State) : Option ReadOutcome :=
  if s.busy then none
  else if s.result = ResultCode.success then some (.ok (readingOfWord s.reading))
  else if s.result = ResultCode.noResponse then some .noResponse
  else if s.result = ResultCode.timeout then some .timeout
  else if s.result = ResultCode.checksumMismatch then some .checksumMismatch
  else none

end Sys2Proof.Machine
end

