-- ==== Sys2Proof/Machine/TimedView.lean ====
section
/-! DEFINITION. The timed view (spec/70_reset_and_hazards.md R243, R249 to R254; spec/43_line_timebase.md R191, R198): premises
of correctness claims about when the levels the engine reads are the bits the sensor sent. It is no part of the step (spec/00_scope.md R15). `EPS_US` and
`T_POWERUP_MS` are open in the spec and stand as arguments. -/

namespace Sys2Proof.Machine

/-- A primitive with the interval of time it occupies, in microseconds, and, for a read, the instant it samples (R249). -/
structure TimedPrim where
  prim : Prim
  start : ℝ
  finish : ℝ
  instant : ℝ

/-- A delay lasts at least what it requests; a read returns the line's level at an instant in its interval (R195, R249). -/
def TimedPrim.respects (level : ℝ → Level) (p : TimedPrim) : Prop :=
  p.start ≤ p.finish ∧
    match p.prim with
    | .delayUs n => (n : ℝ) ≤ p.finish - p.start
    | .delayMs n => 1000 * (n : ℝ) ≤ p.finish - p.start
    | .read l => p.start ≤ p.instant ∧ p.instant ≤ p.finish ∧ l = level p.instant
    | .setDir _ => True
    | .write _ => True

/-- Primitives, the earliest first, occupy successive intervals that do not overlap (R249). -/
def timedRun (level : ℝ → Level) : List TimedPrim → Prop
  | [] => True
  | [p] => p.respects level
  | p :: q :: rest => p.respects level ∧ p.finish ≤ q.start ∧ timedRun level (q :: rest)

/-- The timed primitives are what the engine issued after `before` (a state's `trace` has the latest first). -/
def timesTrace (ps : List TimedPrim) (before after : List Prim) : Prop :=
  after = (ps.map TimedPrim.prim).reverse ++ before

/-- The design widths of R71 and R256, in microseconds, read as bounds (DEDUCED, assumption log 13): a short pulse is 26 to
28 wide, a long pulse 70, and the low gap after a pulse at least 50. -/
def shortPulseMin : ℕ := 26
def shortPulseMax : ℕ := 28
def longPulse : ℕ := 70
def bitGap : ℕ := 50

/-! ### The line -/

/-- The level on the line: `drv` while the block drives it (R191); while it does not, Low where the sensor pulls the line low
and High otherwise (R198; I4 in the timed view). -/
def lineLevel (dir : Dir) (drv : Level) (pulledLow : Bool) : Level :=
  match dir with
  | .output => drv
  | .input => if pulledLow then .low else .high

/-- `dir` after a primitive (R191). -/
def Prim.dirAfter (d : Dir) : Prim → Dir
  | .setDir e => e
  | .write _ => d
  | .read _ => d
  | .delayUs _ => d
  | .delayMs _ => d

/-- `drv` after a primitive (R192). -/
def Prim.drvAfter (l : Level) : Prim → Level
  | .setDir _ => l
  | .write m => m
  | .read _ => l
  | .delayUs _ => l
  | .delayMs _ => l

/-- From when `dir` and `drv` after a primitive hold on the line. DESIGN CHOICE: where in its interval a `setDir` or a `write`
takes effect is open, so the line is left open until the interval ends (assumption log 23). -/
def TimedPrim.holdsFrom (p : TimedPrim) : ℝ :=
  match p.prim with
  | .setDir _ => p.finish
  | .write _ => p.finish
  | .read _ => p.start
  | .delayUs _ => p.start
  | .delayMs _ => p.start

/-- The line follows the primitives, the earliest first, from `dir = d` and `drv = l`: up to the start of the next one, or to
the end of the last, it carries what `dir`, `drv` and the sensor give it (R191, R198). -/
def lineFollows (level : ℝ → Level) (pulledLow : ℝ → Bool) : Dir → Level → List TimedPrim → Prop
  | _, _, [] => True
  | d, l, [p] =>
    ∀ t, p.holdsFrom ≤ t → t ≤ p.finish → level t = lineLevel (p.prim.dirAfter d) (p.prim.drvAfter l) (pulledLow t)
  | d, l, p :: q :: rest =>
    (∀ t, p.holdsFrom ≤ t → t < q.start →
      level t = lineLevel (p.prim.dirAfter d) (p.prim.drvAfter l) (pulledLow t)) ∧
    lineFollows level pulledLow (p.prim.dirAfter d) (p.prim.drvAfter l) (q :: rest)

/-! ### The acknowledgement -/

/-- Up to the instant `last` the sensor pulls the line low from `ackStart` until `ackEnd` and at no other time. The spec gives
neither instant (N3), so both are arguments; at `ackEnd` itself the line is let go (DESIGN CHOICE, assumption log 24). -/
def acknowledges (pulledLow : ℝ → Bool) (ackStart ackEnd last : ℝ) : Prop :=
  ackStart < ackEnd ∧ ∀ t, t ≤ last → (pulledLow t = true ↔ ackStart ≤ t ∧ t < ackEnd)

/-- The premise of R251: the pin is an input, by the `setDir` of START_RELEASE, before the acknowledgement low ends. -/
def releasedInTime (setIn : TimedPrim) (ackEnd : ℝ) : Prop :=
  setIn.prim = .setDir .input ∧ setIn.finish < ackEnd

/-- What the reads of an exhausted acknowledgement wait span at the least, in microseconds (R252). -/
def acknowledgementBudget (p : Config.Params) : ℝ :=
  ((p.hsPolls : ℝ) - 1) * (p.pollUs : ℝ)

/-! ### Data bits -/

/-- The high pulse of one data bit that rises at `tr` and is `width` wide, and the low gap after it (R71). DESIGN CHOICE: the
line is High at the instant of the rise and Low at the instant of the fall, which the spec leaves open (assumption log 22). -/
def bitPulse (level : ℝ → Level) (tr width : ℝ) (bit : BitVec 1) : Prop :=
  (bit = 0#1 → shortPulseMin ≤ width ∧ width ≤ shortPulseMax) ∧
  (bit = 1#1 → width = longPulse) ∧
  (∀ t, tr ≤ t → t < tr + width → level t = .high) ∧
  (∀ t, tr + width ≤ t → t < tr + width + bitGap → level t = .low)

/-- The sufficient condition of R253 on the parameters, for a bound `epsUs` on one bit's latency and over-run. -/
def samplingWindow (p : Config.Params) (epsUs : ℝ) : Prop :=
  shortPulseMax < (p.tSettleUs : ℝ) ∧ (p.tSettleUs : ℝ) + (p.pollUs : ℝ) + epsUs < longPulse

/-- A transaction starts no sooner than the sensor's start-up time, `T_POWERUP_MS` after power-up at instant `t0` (R243). -/
def afterPowerUp (tPowerupMs : ℕ) (t0 t : ℝ) : Prop :=
  t0 + 1000 * (tPowerupMs : ℝ) ≤ t

end Sys2Proof.Machine
end

