-- ==== Sys2Proof/Safety.lean ====
section
/-! DEFINITION. The terms claims are stated in: the invariant that every step keeps, the table of waits (spec/41_protocol_engine.md
R136 to R139, R142), the table of successors (R130) and runs of the engine. -/

namespace Sys2Proof.Machine

/-! ### The invariant -/

/-- The configuration is legal and the codes are ones the spec allows (R242, R20, R78). -/
abbrev CodesOk (s : State) : Prop :=
  configLegal s.cfg = true ∧ pcLegal s.pc = true ∧ resultLegal s.result = true

/-- The line is driven High in START_LOW, driven Low in START_RELEASE, and released with `drv` High everywhere else (R132 to
R134, R149). -/
abbrev LineOk (s : State) : Prop :=
  (s.pc = StateCode.startLow → s.dir = .output ∧ s.drv = .high) ∧
  (s.pc = StateCode.startRelease → s.dir = .output ∧ s.drv = .low) ∧
  (s.pc ≠ StateCode.startLow → s.pc ≠ StateCode.startRelease → s.dir = .input ∧ s.drv = .high)

/-- While a transaction is in progress RESULT is NONE (R102, R104). -/
abbrev ResultOk (s : State) : Prop :=
  s.busy = true → s.result = ResultCode.none

/-- `bidx` is at most 5 and `nbit` at most 7 between steps (R24, R25); `acc` holds `nbit` bits; nothing is received before
WAIT_BIT_HIGH, the byte being received has a place in the buffer, and DONE has all five (R143). -/
abbrev BufferOk (s : State) : Prop :=
  s.bidx ≤ 5#3 ∧ s.nbit ≤ 7#4 ∧ s.acc.toNat < 2 ^ s.nbit.toNat ∧
  (StateCode.startHigh ≤ s.pc → s.pc ≤ StateCode.waitHsLow → s.bidx = 0#3 ∧ s.nbit = 0#4) ∧
  (StateCode.waitBitHigh ≤ s.pc → s.pc ≤ StateCode.bitCommit → s.bidx ≤ 4#3) ∧
  (s.pc = StateCode.done → s.bidx = 5#3 ∧ s.nbit = 0#4)

/-- BIT_TAIL and WAIT_BIT_LOW are entered only after a 1 bit (R141, R142). -/
abbrev SampleOk (s : State) : Prop :=
  (s.pc = StateCode.bitTail ∨ s.pc = StateCode.waitBitLow) → s.sbit = 1#1

/-- A state that waits with the bound `WAIT_POLLS`. -/
abbrev boundedWait (pc : BitVec 4) : Prop :=
  pc = StateCode.waitHsHigh ∨ pc = StateCode.waitHsLow ∨ pc = StateCode.waitBitHigh ∨ pc = StateCode.waitBitLow

/-- `poll` is at most `max(HS_POLLS, WAIT_POLLS)` (R23). -/
def pollInRange (p : Config.Params) (poll : Nat) : Bool :=
  match p.waitPolls with
  | .reads n => decide (poll ≤ max p.hsPolls n)
  | .unbounded => true

/-- A wait in progress has made fewer reads than its bound, and `poll` is 0 in every other state of a transaction (R23,
R135). -/
abbrev PollOk (s : State) : Prop :=
  pollInRange s.cfg s.poll = true ∧
  (s.pc = StateCode.waitAckLow → s.poll < s.cfg.hsPolls) ∧
  (boundedWait s.pc → exhausted s.cfg.waitPolls s.poll = false) ∧
  (s.busy = true → s.pc ≠ StateCode.waitAckLow → ¬ boundedWait s.pc → s.poll = 0)

/-- What every step keeps. -/
abbrev SafeState (s : State) : Prop :=
  CodesOk s ∧ LineOk s ∧ ResultOk s ∧ BufferOk s ∧ SampleOk s ∧ PollOk s

/-! ### Waits and successors -/

/-- A wait state's instruction, code, target level, failure and successor (R136 to R139, R142). -/
structure WaitRow where
  instr : Instr
  code : BitVec 4
  target : Level
  kind : FailKind
  following : BitVec 4
deriving DecidableEq, Repr

/-- The five waits, in the order of R130. -/
def waitTable : List WaitRow :=
  [ ⟨.waitAckLow, 0x4#4, .low, .noResponse, 0x5#4⟩,
    ⟨.waitHsHigh, 0x5#4, .high, .timeout, 0x6#4⟩,
    ⟨.waitHsLow, 0x6#4, .low, .timeout, 0x7#4⟩,
    ⟨.waitBitHigh, 0x7#4, .high, .timeout, 0x8#4⟩,
    ⟨.waitBitLow, 0xA#4, .low, .timeout, 0xB#4⟩ ]

/-- The bound of a wait: `HS_POLLS` for the acknowledgement wait, `WAIT_POLLS` for every other (R136, R211). -/
def WaitRow.bound (w : WaitRow) (p : Config.Params) : Config.Bound :=
  match w.kind with
  | .noResponse => .reads p.hsPolls
  | .timeout => p.waitPolls

/-- The successors of R130, a failing wait's IDLE among them; a wait may stay where it is. -/
def successors (pc : BitVec 4) : List (BitVec 4) :=
  if pc = StateCode.idle then [StateCode.startHigh]
  else if pc = StateCode.startHigh then [StateCode.startLow]
  else if pc = StateCode.startLow then [StateCode.startRelease]
  else if pc = StateCode.startRelease then [StateCode.waitAckLow]
  else if pc = StateCode.waitAckLow then [StateCode.waitAckLow, StateCode.waitHsHigh, StateCode.idle]
  else if pc = StateCode.waitHsHigh then [StateCode.waitHsHigh, StateCode.waitHsLow, StateCode.idle]
  else if pc = StateCode.waitHsLow then [StateCode.waitHsLow, StateCode.waitBitHigh, StateCode.idle]
  else if pc = StateCode.waitBitHigh then [StateCode.waitBitHigh, StateCode.bitSample, StateCode.idle]
  else if pc = StateCode.bitSample then [StateCode.bitTail, StateCode.bitCommit]
  else if pc = StateCode.bitTail then [StateCode.waitBitLow]
  else if pc = StateCode.waitBitLow then [StateCode.waitBitLow, StateCode.bitCommit, StateCode.idle]
  else if pc = StateCode.bitCommit then [StateCode.waitBitHigh, StateCode.done]
  else if pc = StateCode.done then [StateCode.idle]
  else []

/-! ### What the next step is -/

/-- The next turn is the engine's: it stands first, or no turn is left. -/
abbrev engineTurn (s : State) : Prop :=
  s.turns = [] ∨ s.turns.head? = some .engine

/-- The next turn is a defined host access that decodes to `i` (R54). -/
def hostTurn (s : State) (i : Instr) : Prop :=
  ∃ a, s.turns.head? = some (.access a) ∧ decodeAccess s.cfg.regBase a = .ok i

/-- The next turn is a reset of the block (R240). -/
abbrev resetTurn (s : State) : Prop :=
  s.turns.head? = some .reset

/-- `off` is one of the eight offsets of R54. -/
abbrev definedOffset (off : Nat) : Prop :=
  off % 4 = 0 ∧ off ≤ 0x1C

/-- A next state is reached from `s` in `k` steps with no stop. -/
def reaches (k : Nat) (s t : State) : Prop :=
  Sys2Proof.core.run k s = .next t

end Sys2Proof.Machine
end

