-- ==== Sys2Proof/Certificates/Slice0/Obligations.lean ====
section
/-! DEFINITION. The statements for the provers, one `def Obligations.<Name> : Prop` each, in the order of OBLIGATIONS.json. -/

open Sys2Proof Sys2Proof.Machine

/-! ### Reset and the invariant -/

/-- R40: the table of reset values. The model's own fields (cfg, turns, script, draws, trace, rdata) are not in it. -/
def Obligations.ResetGivesTheListedValues : Prop :=
  State.reset.pc = 0x0#4 ∧ State.reset.busy = false ∧ State.reset.mode = 0#1 ∧ State.reset.poll = 0 ∧
  (∀ i : BitVec 3, i ≤ 4#3 → State.reset.buf.load i = some 0x00#8) ∧
  State.reset.bidx = 0#3 ∧ State.reset.acc = 0x00#8 ∧ State.reset.nbit = 0#4 ∧ State.reset.sbit = 0#1 ∧
  State.reset.result = 0#3 ∧ State.reset.frame = 0x0000000000#40 ∧ State.reset.reading = 0x00000000#32 ∧
  State.reset.dir = .input ∧ State.reset.drv = .high

/-- R240: a reset in any state, a transaction in progress included, sets every register to its value of R40 in one step.
What it leaves of the model's own fields is assumption log 9. -/
def Obligations.ResetTurnSetsEveryRegister : Prop :=
  ∀ (s : State) (rest : List Turn), CodesOk s → s.turns = .reset :: rest →
    step s = .next
      { State.reset with
        cfg := s.cfg, turns := rest, script := s.script, draws := s.draws, trace := s.trace, rdata := s.rdata }

/-- The reset state satisfies the invariant. -/
def Obligations.ResetSatisfiesTheInvariant : Prop :=
  SafeState State.reset

/-- Every step keeps the invariant: engine steps, host accesses and resets alike. -/
def Obligations.InvariantKeptByEveryStep : Prop :=
  ∀ s t : State, SafeState s → step s = .next t → SafeState t

/-- R148: no step misuses the Line Driver; writes are issued in START_HIGH, START_LOW and START_RELEASE alone, and reads
in the states 0x4 to 0xA alone, with the pin an input. -/
def Obligations.LineDriverNeverMisused : Prop :=
  (∀ (s : State) (f : Fault), SafeState s → step s ≠ .fault f) ∧
  (∀ s t : State, SafeState s → step s = .next t →
    ∃ issued : List Prim, t.trace = issued ++ s.trace ∧
      (∀ l, Prim.write l ∈ issued → 0x1#4 ≤ s.pc ∧ s.pc ≤ 0x3#4) ∧
      (s.pc = 0x1#4 → engineTurn s → ∃ more, issued = more ++ [.write .high, .setDir .output]) ∧
      (s.pc = 0x3#4 → engineTurn s → ∃ more, issued = .setDir .input :: more) ∧
      (∀ l, Prim.read l ∈ issued → 0x4#4 ≤ s.pc ∧ s.pc ≤ 0xA#4 ∧ s.dir = .input) ∧
      (∀ d, Prim.setDir d ∈ issued → (s.pc = 0x1#4 ∧ d = .output) ∨ (s.pc = 0x3#4 ∧ d = .input)))

/-- From a state of the invariant the machine goes on, unless the next turn is an access outside R54. -/
def Obligations.InvariantGivesANextStep : Prop :=
  ∀ s : State, SafeState s →
    (∀ a, s.turns.head? = some (.access a) → ∃ i, decodeAccess s.cfg.regBase a = .ok i) →
    ∃ t, step s = .next t

/-! ### Decoding and fetching -/

/-- Every well-formed instruction is read back from its own code. -/
def Obligations.DecodeOfEncodeIsTheInstruction : Prop :=
  ∀ i : Instr, Sys2Proof.Laws.RoundTrip.Statement i

/-- What is decoded is well formed, and its code is the one read, less the bits of a CTRL value that R77 ignores. -/
def Obligations.EncodeOfDecodeIsTheCode : Prop :=
  ∀ (c : Code) (i : Instr), Sys2Proof.decode c = .ok i → i.wellFormed = true ∧ encode i = c.canonical

/-- Words written out from the tables R76, R80 and R28 decode to the instructions they stand for. -/
def Obligations.WordsOfEveryFormatDecode : Prop :=
  Sys2Proof.decode (.command 0b00000000000000000000000000000011#32) = .ok .readSensor ∧
  Sys2Proof.decode (.command 0b11111111111111111111111101111111#32) = .ok (.reservedCmd40 0b01111111#8) ∧
  Sys2Proof.decode (.state 0b1010#4) = .ok .waitBitLow ∧
  Sys2Proof.decode (.state 0b1101#4) = .error .reservedStateCode ∧
  Sys2Proof.decode (.read 0x0C 4) = .ok .rdFrameHi ∧
  Sys2Proof.decode (.write 0x08 4 0xDEADBEEF#32) = .ok (.wrFrameLo 0xDEADBEEF#32)

/-- R77: bits 7:0 of the value written to CTRL alone select the command, so bits 31:8 never matter (R29). -/
def Obligations.CommandSelectedByTheLowByte : Prop :=
  ∀ (v w : Word) (s : State), v.extractLsb' 0 8 = w.extractLsb' 0 8 →
    Sys2Proof.decode (.command v) = Sys2Proof.decode (.command w) ∧ exec (.wrCtrl v) s = exec (.wrCtrl w) s

/-- A write of CTRL does what the row of its command does (R76), and always goes on. -/
def Obligations.CtrlWriteRunsItsCommand : Prop :=
  ∀ (v : Word) (s : State), ∃ (i : Instr) (t : State),
    Sys2Proof.decode (.command v) = .ok i ∧ exec (.wrCtrl v) s = .next t ∧ exec i s = .next t

/-- I25, I26: a state that holds a reserved STATE or RESULT code is refused. That this comes before any turn, a reset turn
included, and that STATE is named where both codes are reserved, is the model's choice (assumption log 14): I25 and I26 do
not say when. -/
def Obligations.ReservedCodesAreRefused : Prop :=
  (∀ s : State, configLegal s.cfg = true → 0xC#4 < s.pc → step s = .refused .reservedStateCode) ∧
  (∀ s : State, configLegal s.cfg = true → s.pc ≤ 0xC#4 → 4#3 < s.result → step s = .refused .reservedResultCode)

/-- R8, R242, I28: a configuration is refused exactly when a parameter lies outside its legal range. That no value of
`T_SETTLE_US` and `T_TAIL_US` is refused, whose range R8 gives by R253 and R254, is the model's choice (assumption log 11),
and so is that the refusal comes first and before any turn (assumption log 14). -/
def Obligations.IllegalConfigurationIsRefused : Prop :=
  ∀ s : State,
    step s = .refused .illegalConfiguration ↔
      ¬ (1 ≤ s.cfg.tIdleMs ∧ 1 ≤ s.cfg.tStartLowMs ∧ s.cfg.tStartLowMs ≤ 10 ∧ 1 ≤ s.cfg.hsPolls ∧
          ∀ n, s.cfg.waitPolls = .reads n → 1 ≤ n)

/-- R54: the host accesses that have a meaning are the 4-byte ones at a multiple of 4 in 0x00 to 0x1C; any other is refused. -/
def Obligations.OnlyAlignedWordAccessesAreDefined : Prop :=
  ∀ (s : State) (a : Access) (rest : List Turn), CodesOk s → s.turns = .access a :: rest →
    ((∃ t, step s = .next t) ↔
      ∃ off, definedOffset off ∧
        (a = .memRead (s.cfg.regBase + off) 4 ∨ ∃ v, a = .memWrite (s.cfg.regBase + off) 4 v)) ∧
    ((¬ ∃ t, step s = .next t) →
      step s = .refused .accessOutsideWindow ∨ step s = .refused .accessBadWidth ∨ step s = .refused .accessMisaligned)

/-- A step runs the instruction the next turn decodes to: the engine's state on an engine turn or when no turn is left, the
access on a host turn, a read of STATUS on WAITIDLE (assumption logs 3 and 4). -/
def Obligations.StepRunsTheDecodedInstruction : Prop :=
  ∀ (s : State), CodesOk s →
    (∀ i, s.turns = [] → Sys2Proof.decode (.state s.pc) = .ok i → step s = exec i s) ∧
    (∀ i rest, s.turns = .engine :: rest → Sys2Proof.decode (.state s.pc) = .ok i →
      step s = exec i { s with turns := rest }) ∧
    (∀ i rest off width, s.turns = .access (.memRead (s.cfg.regBase + off) width) :: rest →
      Sys2Proof.decode (.read off width) = .ok i → step s = exec i { s with turns := rest }) ∧
    (∀ i rest off width v, s.turns = .access (.memWrite (s.cfg.regBase + off) width v) :: rest →
      Sys2Proof.decode (.write off width v) = .ok i → step s = exec i { s with turns := rest }) ∧
    (∀ rest, s.turns = .waitIdle :: rest → s.pc = 0x0#4 → step s = exec .rdStatus { s with turns := rest }) ∧
    (∀ rest, s.turns = .waitIdle :: rest → s.pc ≠ 0x0#4 →
      step s = exec .rdStatus { s with turns := .engine :: .waitIdle :: rest })

/-! ### Commands -/

/-- The pseudocode of R102 and R104 for an idle block: ACQUIRE and READ_SENSOR start a transaction; nothing else changes. -/
def Obligations.AcquireAndReadSensorStartATransaction : Prop :=
  ∀ s : State, s.pc = 0x0#4 →
    exec .acquire s = .next
      { s with
        mode := 0#1, poll := 0, bidx := 0#3, acc := 0x00#8, nbit := 0#4, sbit := 0#1
        buf := ⟨0x00#8, 0x00#8, 0x00#8, 0x00#8, 0x00#8⟩, result := 0#3, pc := 0x1#4 } ∧
    exec .readSensor s = .next
      { s with
        mode := 1#1, poll := 0, bidx := 0#3, acc := 0x00#8, nbit := 0#4, sbit := 0#1
        buf := ⟨0x00#8, 0x00#8, 0x00#8, 0x00#8, 0x00#8⟩, result := 0#3, pc := 0x1#4 }

/-- R106: a write to CTRL while BUSY is ignored, whatever its CMD. -/
def Obligations.BusyIgnoresEveryCommand : Prop :=
  ∀ s : State, s.pc ≠ 0x0#4 →
    (∀ v, exec (.wrCtrl v) s = .next s) ∧
    (∀ (v : Word) (i : Instr), Sys2Proof.decode (.command v) = .ok i → exec i s = .next s)

/-- R101, R105: NOP and the reserved commands change nothing, BUSY or not; bits 31:8 of a CTRL write never matter. -/
def Obligations.NopAndReservedCommandsChangeNothing : Prop :=
  ∀ (s : State) (code : BitVec 8),
    exec .nop s = .next s ∧
    exec (.reservedCmd04 code) s = .next s ∧ exec (.reservedCmd08 code) s = .next s ∧
    exec (.reservedCmd10 code) s = .next s ∧ exec (.reservedCmd20 code) s = .next s ∧
    exec (.reservedCmd40 code) s = .next s ∧ exec (.reservedCmd80 code) s = .next s ∧
    (∀ v : Word, v.extractLsb' 0 8 = 0x00#8 ∨ 0x04#8 ≤ v.extractLsb' 0 8 → exec (.wrCtrl v) s = .next s) ∧
    (∀ (high : BitVec 24) (v : Word), exec (.wrCtrl (high ++ v.extractLsb' 0 8)) s = exec (.wrCtrl v) s) ∧
    exec (.wrCtrl 0x00000101#32) s = exec .acquire s

/-- R103: DECODE on an idle block writes READING and SUCCESS on a match, CHECKSUM_MISMATCH alone otherwise; on a busy block
nothing; issued again on the same FRAME it gives the same result. -/
def Obligations.DecodeCommandRecordsTheOutcome : Prop :=
  ∀ s : State,
    (s.pc ≠ 0x0#4 → exec .decode s = .next s) ∧
    (∀ r, s.pc = 0x0#4 → decodeFrame s.frame = .ok r →
      exec .decode s = .next
        { s with reading := BitVec.ofInt 16 r.temperatureTenths ++ BitVec.ofNat 16 r.humidityTenths, result := 1#3 }) ∧
    (s.pc = 0x0#4 → decodeFrame s.frame = .checksumMismatch → exec .decode s = .next { s with result := 4#3 }) ∧
    (∀ t u, exec .decode s = .next t → exec .decode t = .next u → u = t)

/-! ### Host reads and writes -/

/-- R107: what a read of each offset returns; a read changes nothing but the value the host sees. -/
def Obligations.HostReadsReturnTheRegisterViews : Prop :=
  ∀ s : State,
    exec .rdCtrl s = .next { s with rdata := 0#32 } ∧
    (∃ v : Word, v.toNat = s.pc.toNat * 256 + s.result.toNat * 2 + (if s.pc = 0x0#4 then 0 else 1) ∧
      exec .rdStatus s = .next { s with rdata := v }) ∧
    (∃ v : Word, v.toNat = s.frame.toNat % 2 ^ 32 ∧ exec .rdFrameLo s = .next { s with rdata := v }) ∧
    (∃ v : Word, v.toNat = s.frame.toNat / 2 ^ 32 ∧ exec .rdFrameHi s = .next { s with rdata := v }) ∧
    exec .rdReading s = .next { s with rdata := s.reading } ∧
    exec .rdReserved14 s = .next { s with rdata := 0#32 } ∧
    exec .rdReserved18 s = .next { s with rdata := 0#32 } ∧
    exec .rdReserved1C s = .next { s with rdata := 0#32 }

/-- R108: a write of FRAME_LO or FRAME_HI replaces its bits of FRAME while BUSY = 0 and is ignored while BUSY = 1. -/
def Obligations.FrameWritesTakeEffectWhenIdle : Prop :=
  ∀ (s : State) (v : Word),
    (s.pc = 0x0#4 → exec (.wrFrameLo v) s = .next { s with frame := s.frame.extractLsb' 32 8 ++ v }) ∧
    (s.pc = 0x0#4 →
      exec (.wrFrameHi v) s = .next { s with frame := v.extractLsb' 0 8 ++ s.frame.extractLsb' 0 32 }) ∧
    (s.pc ≠ 0x0#4 → exec (.wrFrameLo v) s = .next s ∧ exec (.wrFrameHi v) s = .next s)

/-- R109: writes of STATUS, READING and the reserved offsets have no effect. -/
def Obligations.ReadOnlyWritesChangeNothing : Prop :=
  ∀ (s : State) (v : Word),
    exec (.wrStatus v) s = .next s ∧ exec (.wrReading v) s = .next s ∧ exec (.wrReserved14 v) s = .next s ∧
    exec (.wrReserved18 v) s = .next s ∧ exec (.wrReserved1C v) s = .next s

/-- Writing FRAME_HI and FRAME_LO, in either order, and reading both back gives the values written, bits 31:8 of FRAME_HI
reading 0 (R31, R32, R34). -/
def Obligations.FrameReadsBackWhatWasWritten : Prop :=
  ∀ (s t u : State) (hi lo : Word), s.pc = 0x0#4 →
    ((exec (.wrFrameHi hi) s = .next t ∧ exec (.wrFrameLo lo) t = .next u) ∨
      (exec (.wrFrameLo lo) s = .next t ∧ exec (.wrFrameHi hi) t = .next u)) →
    u.frame = hi.extractLsb' 0 8 ++ lo ∧
    exec .rdFrameLo u = .next { u with rdata := lo } ∧
    exec .rdFrameHi u = .next { u with rdata := hi &&& 0x000000FF#32 }

/-- R26, R56: a host access touches neither the line nor the environment, and the engine's registers only by starting a
transaction in an idle block. -/
def Obligations.HostAccessLeavesTheEngineAlone : Prop :=
  ∀ (s t : State) (a : Access) (rest : List Turn), s.turns = .access a :: rest → step s = .next t →
    t.dir = s.dir ∧ t.drv = s.drv ∧ t.script = s.script ∧ t.draws = s.draws ∧ t.trace = s.trace ∧ t.cfg = s.cfg ∧
    t.turns = rest ∧
    ((t.pc = s.pc ∧ t.mode = s.mode ∧ t.poll = s.poll ∧ t.buf = s.buf ∧ t.bidx = s.bidx ∧ t.acc = s.acc ∧
        t.nbit = s.nbit ∧ t.sbit = s.sbit) ∨
      ∃ v : Word, s.pc = 0x0#4 ∧ a = .memWrite s.cfg.regBase 4 v ∧
        (v.extractLsb' 0 8 = 0x01#8 ∨ v.extractLsb' 0 8 = 0x03#8) ∧
        t.mode = (if v.extractLsb' 0 8 = 0x01#8 then 0#1 else 1#1) ∧
        t.pc = 0x1#4 ∧ t.poll = 0 ∧ t.buf = FrameBuffer.zero ∧ t.bidx = 0#3 ∧ t.acc = 0#8 ∧ t.nbit = 0#4 ∧ t.sbit = 0#1)

/-! ### The Protocol Engine -/

/-- R131: an engine turn in IDLE changes nothing (that it is a step at all is the model's choice, assumption log 3), and the
only way out of IDLE is a CTRL write of ACQUIRE or READ_SENSOR. -/
def Obligations.IdleWaitsForACommand : Prop :=
  (∀ s : State, exec .idle s = .next s) ∧
  (∀ s : State, CodesOk s → s.pc = 0x0#4 → engineTurn s → step s = .next { s with turns := s.turns.tail }) ∧
  (∀ s t : State, step s = .next t → s.pc = 0x0#4 → t.pc ≠ 0x0#4 →
    t.pc = 0x1#4 ∧ ∃ (v : Word) (rest : List Turn), s.turns = .access (.memWrite s.cfg.regBase 4 v) :: rest ∧
      (v.extractLsb' 0 8 = 0x01#8 ∨ v.extractLsb' 0 8 = 0x03#8))

/-- R132, R133, R134: the three steps of the start signal, their primitives in order, and nothing else. -/
def Obligations.StartSignalSteps : Prop :=
  ∀ s : State,
    exec .startHigh s = .next
      { s with
        dir := .output, drv := .high, pc := 0x2#4
        trace := .delayMs s.cfg.tIdleMs :: .write .high :: .setDir .output :: s.trace } ∧
    (s.dir = .output → exec .startLow s = .next
      { s with
        drv := .low, pc := 0x3#4
        trace := .delayMs s.cfg.tStartLowMs :: .write .low :: s.trace }) ∧
    (s.dir = .output → exec .startRelease s = .next
      { s with
        drv := .high, dir := .input, poll := 0, pc := 0x4#4
        trace := .setDir .input :: .delayUs s.cfg.tReleaseUs :: .write .high :: s.trace })

/-- I1, I2: a line write with the pin an input, or a line read with the pin an output, is a fault. The last clause is the
model's choice (assumption log 10): a full byte with no place in the buffer is a fault. -/
def Obligations.MisuseFaults : Prop :=
  (∀ s : State, s.dir = .input →
    exec .startLow s = .fault .lineWriteWhileInput ∧ exec .startRelease s = .fault .lineWriteWhileInput) ∧
  (∀ (s : State) (w : WaitRow), s.dir = .output → w ∈ waitTable → exec w.instr s = .fault .lineReadWhileOutput) ∧
  (∀ s : State, s.dir = .output → exec .bitSample s = .fault .lineReadWhileOutput) ∧
  (∀ s : State, s.nbit = 7#4 → 4#3 < s.bidx → exec .bitCommit s = .fault .bufferIndexOutOfRange)

/-- R136: one poll iteration of WAIT_ACK_LOW, whatever `WAIT_POLLS` is. -/
def Obligations.AcknowledgementWaitPolls : Prop :=
  ∀ s : State, s.dir = .input →
    (s.nextLevel = .low → exec .waitAckLow s = .next
      { s with
        poll := 0, pc := 0x5#4
        script := s.script.tail, draws := s.draws + 1, trace := .read .low :: s.trace }) ∧
    (s.nextLevel = .high → s.cfg.hsPolls ≤ s.poll + 1 → exec .waitAckLow s = .next
      { s with
        poll := s.poll + 1, result := 2#3, pc := 0x0#4
        script := s.script.tail, draws := s.draws + 1, trace := .read .high :: s.trace }) ∧
    (s.nextLevel = .high → s.poll + 1 < s.cfg.hsPolls → exec .waitAckLow s = .next
      { s with
        poll := s.poll + 1
        script := s.script.tail, draws := s.draws + 1
        trace := .delayUs s.cfg.pollUs :: .read .high :: s.trace })

/-- R137, R138, R139, R142: one poll iteration of each of the other four waits; unbounded, they never fail. -/
def Obligations.BoundedWaitsPoll : Prop :=
  ∀ (s : State) (w : WaitRow), w ∈ waitTable → w.kind = .timeout → s.dir = .input →
    (s.nextLevel = w.target → exec w.instr s = .next
      { s with
        poll := 0, pc := w.following
        script := s.script.tail, draws := s.draws + 1, trace := .read w.target :: s.trace }) ∧
    (∀ n, s.nextLevel ≠ w.target → s.cfg.waitPolls = .reads n → n ≤ s.poll + 1 → exec w.instr s = .next
      { s with
        poll := s.poll + 1, result := 3#3, pc := 0x0#4
        script := s.script.tail, draws := s.draws + 1, trace := .read s.nextLevel :: s.trace }) ∧
    (s.nextLevel ≠ w.target → (s.cfg.waitPolls = .unbounded ∨ ∃ n, s.cfg.waitPolls = .reads n ∧ s.poll + 1 < n) →
      exec w.instr s = .next
        { s with
          poll := s.poll + 1
          script := s.script.tail, draws := s.draws + 1
          trace := .delayUs s.cfg.pollUs :: .read s.nextLevel :: s.trace })

/-- R135: one step of a wait is one poll iteration; a wait whose target is read within its bound ends after that read, with a
delay after every earlier read; a wait with bound N whose N reads all return the other level fails after the N-th, with N − 1
delays; and `poll` is 0 on entry to every wait. -/
def Obligations.WaitEndsAtTheTargetOrTheBound : Prop :=
  (∀ (w : WaitRow) (s : State), w ∈ waitTable → s.dir = .input →
    exec w.instr s = .next
      (if s.nextLevel = w.target then
        { s with
          poll := 0, pc := w.following
          script := s.script.tail, draws := s.draws + 1, trace := .read s.nextLevel :: s.trace }
      else if exhausted (w.bound s.cfg) (s.poll + 1) then
        { s with
          poll := s.poll + 1, result := failCode w.kind, pc := 0x0#4
          script := s.script.tail, draws := s.draws + 1, trace := .read s.nextLevel :: s.trace }
      else
        { s with
          poll := s.poll + 1
          script := s.script.tail, draws := s.draws + 1
          trace := .delayUs s.cfg.pollUs :: .read s.nextLevel :: s.trace })) ∧
  (∀ (w : WaitRow) (s : State) (n : Nat) (rest : List Level), w ∈ waitTable → CodesOk s → s.pc = w.code → s.poll = 0 →
    s.dir = .input → s.turns = [] →
    (s.script = waitLevels n w.target ++ rest →
      (w.bound s.cfg = .unbounded ∨ ∃ bound, w.bound s.cfg = .reads bound ∧ n < bound) →
      reaches (n + 1) s
        { s with
          pc := w.following, script := rest, draws := s.draws + (n + 1)
          trace := .read w.target ::
            (List.replicate n [Prim.delayUs s.cfg.pollUs, .read (otherLevel w.target)]).flatten ++ s.trace }) ∧
    (s.script = List.replicate (n + 1) (otherLevel w.target) ++ rest → w.bound s.cfg = .reads (n + 1) →
      reaches (n + 1) s
        { s with
          pc := 0x0#4, poll := n + 1, result := failCode w.kind, script := rest, draws := s.draws + (n + 1)
          trace := .read (otherLevel w.target) ::
            (List.replicate n [Prim.delayUs s.cfg.pollUs, .read (otherLevel w.target)]).flatten ++ s.trace })) ∧
  (∀ s t : State, step s = .next t → t.pc ≠ s.pc → (∃ w ∈ waitTable, t.pc = w.code) → t.poll = 0)

/-- R140: BIT_SAMPLE holds, reads once and latches the bit. -/
def Obligations.BitSampleLatchesOneRead : Prop :=
  ∀ s : State, s.dir = .input →
    (s.nextLevel = .high → exec .bitSample s = .next
      { s with
        sbit := 1#1, pc := 0x9#4, script := s.script.tail, draws := s.draws + 1
        trace := .read .high :: .delayUs s.cfg.tSettleUs :: s.trace }) ∧
    (s.nextLevel = .low → exec .bitSample s = .next
      { s with
        sbit := 0#1, pc := 0xB#4, script := s.script.tail, draws := s.draws + 1
        trace := .read .low :: .delayUs s.cfg.tSettleUs :: s.trace })

/-- R141: BIT_TAIL holds and enters WAIT_BIT_LOW. -/
def Obligations.BitTailHolds : Prop :=
  ∀ s : State, exec .bitTail s = .next
    { s with poll := 0, pc := 0xA#4, trace := .delayUs s.cfg.tTailUs :: s.trace }

/-- R143: BIT_COMMIT shifts the bit in; the eighth bit of a byte stores it at `bidx`, and `bidx = 5` after the update leads to
DONE. For `bidx` 6 and 7, outside R24, that the next state is WAIT_BIT_HIGH is the model's choice (assumption log 15). A full
byte with `bidx` over 4 is in MisuseFaults. -/
def Obligations.BitCommitShiftsAndStores : Prop :=
  ∀ s : State, s.nbit ≤ 7#4 →
    (s.nbit ≠ 7#4 → ∃ a : Byte, a.toNat = (s.acc.toNat * 2 + s.sbit.toNat) % 256 ∧
      (s.bidx ≠ 5#3 → exec .bitCommit s = .next { s with acc := a, nbit := s.nbit + 1#4, poll := 0, pc := 0x7#4 }) ∧
      (s.bidx = 5#3 → exec .bitCommit s = .next { s with acc := a, nbit := s.nbit + 1#4, pc := 0xC#4 })) ∧
    (s.nbit = 7#4 → s.bidx ≤ 4#3 → ∃ (a : Byte) (b : FrameBuffer), a.toNat = (s.acc.toNat * 2 + s.sbit.toNat) % 256 ∧
      b.load s.bidx = some a ∧ (∀ j : BitVec 3, j ≠ s.bidx → b.load j = s.buf.load j) ∧
      (s.bidx ≠ 4#3 → exec .bitCommit s = .next
        { s with buf := b, bidx := s.bidx + 1#3, acc := 0#8, nbit := 0#4, poll := 0, pc := 0x7#4 }) ∧
      (s.bidx = 4#3 → exec .bitCommit s = .next
        { s with buf := b, bidx := 5#3, acc := 0#8, nbit := 0#4, pc := 0xC#4 }))

/-- R144: DONE publishes the frame and goes idle; in READ_SENSOR mode it decodes what it published. -/
def Obligations.DonePublishesTheFrame : Prop :=
  ∀ (s : State) (f : Frame), f = s.buf.b0 ++ s.buf.b1 ++ s.buf.b2 ++ s.buf.b3 ++ s.buf.b4 →
    (s.mode = 0#1 → exec .done s = .next { s with frame := f, result := 1#3, pc := 0x0#4 }) ∧
    (∀ r, s.mode = 1#1 → decodeFrame f = .ok r → exec .done s = .next
      { s with
        frame := f, result := 1#3, pc := 0x0#4
        reading := BitVec.ofInt 16 r.temperatureTenths ++ BitVec.ofNat 16 r.humidityTenths }) ∧
    (s.mode = 1#1 → decodeFrame f = .checksumMismatch → exec .done s = .next
      { s with frame := f, result := 4#3, pc := 0x0#4 })

/-! ### Rules of the whole machine -/

/-- R213: a step that ends a transaction in NO_RESPONSE or TIMEOUT writes RESULT and `pc` and, by the failing read itself,
`poll` and the environment; FRAME, READING, the received bits and the line stay, and no primitive follows the read. -/
def Obligations.FailureLeavesPublishedRegisters : Prop :=
  ∀ s t : State, SafeState s → step s = .next t → s.pc ≠ 0x0#4 → t.pc = 0x0#4 → t.result = 2#3 ∨ t.result = 3#3 →
    t = { s with
          result := t.result, pc := 0x0#4, poll := s.poll + 1
          turns := s.turns.tail, script := s.script.tail, draws := s.draws + 1
          trace := .read s.nextLevel :: s.trace } ∧
    t.dir = .input ∧ t.drv = .high ∧
    (t.result = 2#3 ↔ s.pc = 0x4#4)

/-- R130: a step either leaves `pc` where it is, or moves it to a listed successor, or is a reset; IDLE is left on the
acceptance of a command alone; a wait fails with its own code; the bit sampled and the bytes received choose between two
successors. -/
def Obligations.OnlyListedSuccessors : Prop :=
  ∀ s t : State, step s = .next t →
    (t.pc ∈ successors s.pc ∨ resetTurn s ∨
      (t.pc = s.pc ∧ (¬ engineTurn s ∨ s.pc = 0x0#4))) ∧
    (s.pc = 0x0#4 → t.pc ≠ 0x0#4 →
      ∃ v : Word, hostTurn s (.wrCtrl v) ∧ (v.extractLsb' 0 8 = 0x01#8 ∨ v.extractLsb' 0 8 = 0x03#8)) ∧
    (s.pc ≠ 0x0#4 → s.pc ≠ 0xC#4 → t.pc = 0x0#4 → ¬ resetTurn s → t.result = if s.pc = 0x4#4 then 2#3 else 3#3) ∧
    (s.pc = 0x8#4 → engineTurn s → (t.pc = 0x9#4 ↔ t.sbit = 1#1)) ∧
    (s.pc = 0xB#4 → engineTurn s → (t.pc = 0xC#4 ↔ t.bidx = 5#3))

/-- R64: FRAME changes only by the DONE step, which publishes the buffer, by a host write of FRAME_LO or FRAME_HI to an idle
block, or by reset. -/
def Obligations.FrameChangesOnlyWhenPublishedOrWritten : Prop :=
  ∀ s t : State, step s = .next t → t.frame ≠ s.frame →
    (engineTurn s ∧ s.pc = 0xC#4 ∧ t.frame = s.buf.frame) ∨
    (s.pc = 0x0#4 ∧ ∃ v, hostTurn s (.wrFrameLo v) ∨ hostTurn s (.wrFrameHi v)) ∨
    resetTurn s

/-- R33: READING changes only by a successful decode of the frame then in FRAME, or by reset. -/
def Obligations.ReadingChangesOnlyByADecode : Prop :=
  ∀ s t : State, step s = .next t → t.reading ≠ s.reading →
    (∃ r, decodeFrame t.frame = .ok r ∧ t.reading = readingWord r ∧ t.result = 1#3 ∧ t.pc = 0x0#4) ∨ resetTurn s

/-- R27: RESULT is written by acceptance, by the end of a transaction and by DECODE (and by reset), and by nothing else. -/
def Obligations.ResultWrittenOnlyAtAcceptanceAndEnd : Prop :=
  ∀ s t : State, step s = .next t → t.result ≠ s.result →
    (s.pc = 0x0#4 ∧ t.pc = 0x1#4 ∧ t.result = 0#3) ∨
    (engineTurn s ∧ s.pc ≠ 0x0#4 ∧ t.pc = 0x0#4 ∧ t.result ≠ 0#3) ∨
    (s.pc = 0x0#4 ∧ t.pc = 0x0#4 ∧ (∃ v : Word, v.extractLsb' 0 8 = 0x02#8 ∧ hostTurn s (.wrCtrl v)) ∧
      (t.result = 1#3 ∨ t.result = 4#3)) ∨
    (resetTurn s ∧ t.result = 0#3)

/-- R22, R24, R25, R35: which steps change `mode`, the frame buffer, `sbit`, the pin's direction and the level driven. -/
def Obligations.InternalRegistersHaveTheirOwnWriters : Prop :=
  ∀ s t : State, step s = .next t → ¬ resetTurn s →
    (t.mode ≠ s.mode → s.pc = 0x0#4 ∧ t.pc = 0x1#4) ∧
    (t.buf ≠ s.buf → (engineTurn s ∧ s.pc = 0xB#4) ∨ (s.pc = 0x0#4 ∧ t.pc = 0x1#4 ∧ t.buf = FrameBuffer.zero)) ∧
    (t.sbit ≠ s.sbit → (engineTurn s ∧ s.pc = 0x8#4) ∨ (s.pc = 0x0#4 ∧ t.pc = 0x1#4 ∧ t.sbit = 0#1)) ∧
    (t.dir ≠ s.dir → engineTurn s ∧ Prim.setDir t.dir ∈ t.trace ∧ (s.pc = 0x1#4 ∨ s.pc = 0x3#4)) ∧
    (t.drv ≠ s.drv → engineTurn s ∧ Prim.write t.drv ∈ t.trace ∧ 0x1#4 ≤ s.pc ∧ s.pc ≤ 0x3#4)

/-- R64: two reads of FRAME while idle, with any number of engine turns between them, give one consistent frame. -/
def Obligations.IdleFrameReadsAreConsistent : Prop :=
  ∀ (s : State) (n : Nat) (rest : List Turn), CodesOk s → s.pc = 0x0#4 →
    s.turns = .access (.memRead (s.cfg.regBase + 0x08) 4) ::
      (List.replicate n .engine ++ .access (.memRead (s.cfg.regBase + 0x0C) 4) :: rest) →
    ∃ t u : State, step s = .next t ∧ reaches (n + 1) t u ∧ u.frame = s.frame ∧ u.turns = rest ∧
      u.rdata.extractLsb' 0 8 ++ t.rdata = s.frame

/-- R65: the parameters do not change while the block runs. -/
def Obligations.ParametersNeverChange : Prop :=
  ∀ s t : State, step s = .next t → t.cfg = s.cfg

/-- R149: every transaction ends with the pin an input and `drv` High. -/
def Obligations.TransactionsEndWithTheLineReleased : Prop :=
  ∀ s t : State, SafeState s → step s = .next t → s.pc ≠ 0x0#4 → t.pc = 0x0#4 → t.dir = .input ∧ t.drv = .high

/-! ### Whole transactions -/

/-- R147: with finite bounds every transaction ends, within the listed steps and line reads. -/
def Obligations.EveryTransactionEnds : Prop :=
  ∀ (s : State) (m : BitVec 1) (w : Nat), configLegal s.cfg = true → s.cfg.waitPolls = .reads w → s.pc = 0x0#4 →
    s.turns = [] →
    ∃ (k : Nat) (t : State), k ≤ 4 + s.cfg.hsPolls + 82 * w + 120 ∧ reaches k (acceptTransaction m s) t ∧ t.pc = 0x0#4 ∧
      t.draws ≤ s.draws + (s.cfg.hsPolls + 82 * w + 40)

/-- R145, R146: a transaction whose level script is one of frame `f`, with any number of reads of the other level below each
wait's bound, takes the steps R130 lists, reads exactly that script and ends with FRAME = `f`; READ_SENSOR decodes it. -/
def Obligations.FrameReceivedIsTheScriptsFrame : Prop :=
  ∀ (s : State) (m : BitVec 1) (f : Frame) (ack high low : Nat) (ws : List BitWaits) (rest : List Level),
    configLegal s.cfg = true → s.pc = 0x0#4 → s.turns = [] →
    s.script = transactionLevels ack high low ws f ++ rest → ws.length = 40 →
    ack < s.cfg.hsPolls → exhausted s.cfg.waitPolls high = false → exhausted s.cfg.waitPolls low = false →
    (∀ w ∈ ws, exhausted s.cfg.waitPolls w.rise = false ∧ exhausted s.cfg.waitPolls w.fall = false) →
    ∃ t : State, reaches (transactionSteps ack high low ws f) (acceptTransaction m s) t ∧
      t.pc = 0x0#4 ∧ t.frame = f ∧ t.script = rest ∧ t.dir = .input ∧ t.drv = .high ∧ t.cfg = s.cfg ∧ t.turns = [] ∧
      (m = 0#1 → t.result = 1#3 ∧ t.reading = s.reading) ∧
      (∀ r, m = 1#1 → decodeFrame f = .ok r → t.result = 1#3 ∧ t.reading = readingWord r) ∧
      (m = 1#1 → decodeFrame f = .checksumMismatch → t.result = 4#3 ∧ t.reading = s.reading)

/-- R146, R147: the script of frame `f` without waits has `3 + 80 + popcount(f)` levels, and its transaction takes
`127 + 2·popcount(f)` steps; no transaction that publishes `f` reads fewer levels or takes fewer steps, so that script is the
shortest. That it publishes `f` is in FrameReceivedIsTheScriptsFrame. -/
def Obligations.ShortestScriptLength : Prop :=
  (∀ f : Frame,
    (shortestScript f).length = 3 + 80 + (frameBits f).count true ∧
    transactionSteps 0 0 0 noWaits f = 127 + 2 * (frameBits f).count true) ∧
  (∀ (s t : State) (m : BitVec 1) (k : Nat), s.pc = 0x0#4 → s.turns = [] → reaches k (acceptTransaction m s) t →
    t.pc = 0x0#4 → t.result = 1#3 ∨ t.result = 4#3 →
    127 + 2 * (frameBits t.frame).count true ≤ k ∧
    s.draws + (3 + 80 + (frameBits t.frame).count true) ≤ t.draws)

/-- R110: `readSensor = acquire ; decode`, for any levels the environment returns. -/
def Obligations.ReadSensorIsAcquireThenDecode : Prop :=
  ∀ (s a : State) (k : Nat), configLegal s.cfg = true → s.pc = 0x0#4 → s.turns = [] →
    reaches k (acceptTransaction 0#1 s) a → a.pc = 0x0#4 →
    ∃ r : State, reaches k (acceptTransaction 1#1 s) r ∧ r.pc = 0x0#4 ∧ r.frame = a.frame ∧
      (a.result ≠ 1#3 → r.result = a.result ∧ r.reading = a.reading) ∧
      (a.result = 1#3 → ∃ d : State, exec .decode a = .next d ∧ r.result = d.result ∧ r.reading = d.reading)

/-- R41: no internal value carries from one transaction into the next: acceptance clears them all, and two idle blocks with
the same parameters and the same levels to come, whatever else they hold, end the same transaction with the same outcome. -/
def Obligations.OutcomeDependsOnParametersAndLevels : Prop :=
  (∀ s t : State, s.pc = 0x0#4 → exec .acquire s = .next t ∨ exec .readSensor s = .next t →
    t.poll = 0 ∧ t.bidx = 0#3 ∧ t.acc = 0x00#8 ∧ t.nbit = 0#4 ∧ t.sbit = 0#1 ∧
    t.buf.b0 = 0x00#8 ∧ t.buf.b1 = 0x00#8 ∧ t.buf.b2 = 0x00#8 ∧ t.buf.b3 = 0x00#8 ∧ t.buf.b4 = 0x00#8) ∧
  ∀ (s₁ s₂ t₁ : State) (m : BitVec 1) (k : Nat), configLegal s₁.cfg = true → s₁.cfg = s₂.cfg →
    s₁.pc = 0x0#4 → s₂.pc = 0x0#4 → s₁.turns = [] → s₂.turns = [] → s₁.script = s₂.script → s₁.draws = s₂.draws →
    reaches k (acceptTransaction m s₁) t₁ → t₁.pc = 0x0#4 →
    ∃ t₂ : State, reaches k (acceptTransaction m s₂) t₂ ∧ t₂.pc = 0x0#4 ∧ t₂.result = t₁.result ∧
      t₂.script = t₁.script ∧ t₂.draws = t₁.draws ∧
      (t₁.result = 1#3 ∨ t₁.result = 4#3 → t₂.frame = t₁.frame) ∧
      (m = 1#1 → t₁.result = 1#3 → t₂.reading = t₁.reading) ∧
      (t₁.result = 2#3 ∨ t₁.result = 3#3 →
        t₁.frame = s₁.frame ∧ t₂.frame = s₂.frame ∧ t₁.reading = s₁.reading ∧ t₂.reading = s₂.reading)

/-- R219: with `WAIT_POLLS = UNBOUNDED`, a line that stays at the wrong level in one of the four later waits keeps the block
BUSY in that wait for ever, with one read and one delay a step. -/
def Obligations.UnboundedWaitHangs : Prop :=
  ∀ (w : WaitRow) (s : State) (n : Nat) (rest : List Level), w ∈ waitTable → w.kind = .timeout → CodesOk s →
    s.pc = w.code → s.dir = .input → s.turns = [] → s.cfg.waitPolls = .unbounded →
    s.script = List.replicate n (otherLevel w.target) ++ rest →
    reaches n s
      { s with
        poll := s.poll + n, script := rest, draws := s.draws + n
        trace := (List.replicate n [Prim.delayUs s.cfg.pollUs, .read (otherLevel w.target)]).flatten ++ s.trace }

/-- R112: the outcome of a transaction that has ended, read from the registers. -/
def Obligations.OutcomeReadFromTheRegisters : Prop :=
  ∀ s : State, s.pc = 0x0#4 →
    (s.result = 1#3 → s.acquireOutcome = some (.success s.frame) ∧ s.readOutcome = some (.ok (readingOfWord s.reading))) ∧
    (s.result = 2#3 → s.acquireOutcome = some .noResponse ∧ s.readOutcome = some .noResponse) ∧
    (s.result = 3#3 → s.acquireOutcome = some .timeout ∧ s.readOutcome = some .timeout) ∧
    (s.result = 4#3 → s.readOutcome = some .checksumMismatch)

/-! ### The Frame Decoder -/

/-- R170 to R177: what five bytes decode to. -/
def Obligations.FiveBytesDecodeToAReading : Prop :=
  ∀ b0 b1 b2 b3 b4 : Byte,
    decodeFrame (b0 ++ b1 ++ b2 ++ b3 ++ b4) =
      if (b0.toNat + b1.toNat + b2.toNat + b3.toNat) % 256 ≠ b4.toNat then .checksumMismatch
      else .ok
        { humidityTenths := b0.toNat * 256 + b1.toNat
          temperatureTenths :=
            if 128 ≤ b2.toNat then -(((b2.toNat - 128) * 256 + b3.toNat : Nat) : Int)
            else ((b2.toNat * 256 + b3.toNat : Nat) : Int) }

/-- R179: `Decode(Encode(H, T))` gives H and T back; on raw frames, `Encode` of the decoded fields gives the frame back but
for the temperature field 0x8000, which comes back as 0x0000. -/
def Obligations.DecodeOfEncodedReading : Prop :=
  (∀ (h : Nat) (t : Int), h ≤ 65535 → -32767 ≤ t → t ≤ 32767 →
    decodeFrame (encodeReading { temperatureTenths := t, humidityTenths := h }) =
      .ok { temperatureTenths := t, humidityTenths := h }) ∧
  (∀ (f : Frame) (r : Reading), decodeFrame f = .ok r → f.extractLsb' 8 16 ≠ 0x8000#16 → encodeReading r = f) ∧
  (∀ (f : Frame) (r : Reading), decodeFrame f = .ok r → f.extractLsb' 8 16 = 0x8000#16 →
    (encodeReading r).extractLsb' 8 16 = 0x0000#16)

/-- R180: exactly one value of byte 4 passes for given bytes 0 to 3; a flip of one bit of byte 4 of a correct frame never
passes, and of a wrong frame at most one such flip passes. -/
def Obligations.ChecksumSensitivity : Prop :=
  (∀ (f : Frame) (r : Reading) (b : Byte), decodeFrame f = .ok r → b ≠ f.extractLsb' 0 8 →
    decodeFrame (f.extractLsb' 8 32 ++ b) = .checksumMismatch) ∧
  (∀ (f : Frame) (r : Reading) (i : Nat), decodeFrame f = .ok r → i < 8 →
    decodeFrame (f ^^^ BitVec.twoPow 40 i) = .checksumMismatch) ∧
  (∀ high : BitVec 32, ∃ b : Byte, ∀ c : Byte,
    (∃ r, decodeFrame (high ++ c) = .ok r) ↔ c = b) ∧
  (∀ (f : Frame) (i j : Nat), decodeFrame f = .checksumMismatch → i < 8 → j < 8 →
    (∃ r, decodeFrame (f ^^^ BitVec.twoPow 40 i) = .ok r) → (∃ r, decodeFrame (f ^^^ BitVec.twoPow 40 j) = .ok r) → i = j)

/-- R174: the temperature lies in −32767 to 32767, every value there is decoded from some field, and two fields decode to one
value only where they are 0x0000 and 0x8000; 0xFFFF is −32767. -/
def Obligations.TemperatureRange : Prop :=
  (∀ raw : BitVec 16, -32767 ≤ signMagnitude raw ∧ signMagnitude raw ≤ 32767) ∧
  (∀ t : Int, -32767 ≤ t → t ≤ 32767 → ∃ raw : BitVec 16, signMagnitude raw = t) ∧
  (∀ raw raw' : BitVec 16, signMagnitude raw = signMagnitude raw' ↔
    raw = raw' ∨ ((raw = 0x0000#16 ∨ raw = 0x8000#16) ∧ (raw' = 0x0000#16 ∨ raw' = 0x8000#16))) ∧
  signMagnitude 0x8000#16 = 0 ∧ signMagnitude 0xFFFF#16 = -32767

/-- R33: READING holds the humidity in bits 15:0 and the temperature in two's complement in bits 31:16, so the reading is
recovered from the register. -/
def Obligations.ReadingRegisterLayout : Prop :=
  ∀ (h : Nat) (t : Int), h ≤ 65535 → -32767 ≤ t → t ≤ 32767 →
    ((readingWord { temperatureTenths := t, humidityTenths := h }).extractLsb' 0 16).toNat = h ∧
    ((readingWord { temperatureTenths := t, humidityTenths := h }).extractLsb' 16 16).toInt = t ∧
    readingOfWord (readingWord { temperatureTenths := t, humidityTenths := h }) =
      { temperatureTenths := t, humidityTenths := h }

/-! ### The timed view -/

/-- R253: within the sampling window the bit BIT_SAMPLE latches is the bit the sensor sent. `seen` is the read of
WAIT_BIT_HIGH that first returns High, `hold` and `sample` the primitives of the BIT_SAMPLE step. The widths of the pulse
are the model's reading of the source's design figures (assumption log 13).The level at the edges is assumption log 22. -/
def Obligations.SampledBitIsTheSentBit : Prop :=
  ∀ (s t : State) (level : ℝ → Level) (tr width eps : ℝ) (bit : BitVec 1) (seen hold sample : TimedPrim)
    (before : List Prim),
    exec .bitSample s = .next t → s.trace = .read .high :: before → seen.prim = .read .high →
    timesTrace [seen, hold, sample] before t.trace → timedRun level [seen, hold, sample] →
    bitPulse level tr width bit → samplingWindow s.cfg eps → tr ≤ seen.instant →
    sample.instant - tr ≤ (s.cfg.tSettleUs : ℝ) + (s.cfg.pollUs : ℝ) + eps →
    t.sbit = bit

/-- R254: after a 1 sampled at least `T_SETTLE_US` past its rise, a tail that reaches the end of the long pulse and ends in
the gap after it makes the first read of WAIT_BIT_LOW see Low, so the bit is committed. The pulse exactly 70 wide and the gap
of at least 50 are the model's reading of the source's design figures (assumption log 13). That the line is Low at the instant
of the fall, so that a tail which ends exactly there is enough, is the model's choice (assumption log 22). -/
def Obligations.TailEndsInTheFollowingGap : Prop :=
  ∀ (s t u : State) (level : ℝ → Level) (tr width : ℝ) (sample tail first : TimedPrim),
    exec .bitTail s = .next t → exec .waitBitLow t = .next u →
    tail.prim = .delayUs s.cfg.tTailUs → first.prim = .read t.nextLevel →
    timedRun level [sample, tail, first] → sample.instant ≤ sample.finish →
    bitPulse level tr width 1#1 → tr + (s.cfg.tSettleUs : ℝ) ≤ sample.instant →
    (longPulse : ℝ) ≤ (s.cfg.tSettleUs : ℝ) + (s.cfg.tTailUs : ℝ) → first.instant < tr + longPulse + bitGap →
    u.pc = 0xB#4 ∧ u.trace = .read .low :: .delayUs s.cfg.tTailUs :: s.trace

/-- R250: in the start signal the line is high for at least `T_IDLE_MS` and then low for at least `T_START_LOW_MS`. -/
def Obligations.StartSignalHoldsItsLevels : Prop :=
  ∀ (s t : State) (level : ℝ → Level) (setOut high hold low pulse release wait setIn : TimedPrim), CodesOk s →
    s.pc = 0x1#4 → s.turns = [] → reaches 3 s t →
    timesTrace [setOut, high, hold, low, pulse, release, wait, setIn] s.trace t.trace →
    timedRun level [setOut, high, hold, low, pulse, release, wait, setIn] →
    high.prim = .write .high ∧ low.prim = .write .low ∧ release.prim = .write .high ∧
    1000 * (s.cfg.tIdleMs : ℝ) ≤ low.start - high.finish ∧
    1000 * (s.cfg.tStartLowMs : ℝ) ≤ release.start - low.finish

/-- R198: after release the line reads High unless the sensor pulls it low. In the timed view, where the line follows the
primitives, every read of a transaction from WAIT_ACK_LOW on returns Low where the sensor pulls the line low at its instant and
High where it does not. When a primitive takes effect on the line is assumption log 23. -/
def Obligations.ReleasedLineReadsHigh : Prop :=
  ∀ (s t : State) (k : Nat) (level : ℝ → Level) (pulledLow : ℝ → Bool) (ps : List TimedPrim),
    SafeState s → 0x4#4 ≤ s.pc → s.turns = [] → reaches k s t →
    timesTrace ps s.trace t.trace → timedRun level ps → lineFollows level pulledLow s.dir s.drv ps →
    ∀ (p : TimedPrim) (l : Level), p ∈ ps → p.prim = .read l →
      (pulledLow p.instant = true → l = .low) ∧ (pulledLow p.instant = false → l = .high)

/-- R251, R252: an acknowledgement low that has ended before the pin is an input is missed, and the transaction ends in
NO_RESPONSE; one that a read of the wait falls into is not missed; and the reads of an exhausted wait span at least the budget.
The instants of the acknowledgement are arguments (N3); its end and the effect of a primitive are assumption logs 24 and 23. -/
def Obligations.AcknowledgementNeedsReleaseInTime : Prop :=
  ∀ (s t : State) (n : Nat) (level : ℝ → Level) (pulledLow : ℝ → Bool) (ackStart ackEnd last : ℝ)
    (release hold setIn : TimedPrim) (polls : List TimedPrim),
    SafeState s → s.pc = 0x3#4 → s.turns = [] → reaches (n + 1) s t →
    timesTrace (release :: hold :: setIn :: polls) s.trace t.trace →
    timedRun level (release :: hold :: setIn :: polls) →
    lineFollows level pulledLow s.dir s.drv (release :: hold :: setIn :: polls) →
    (∀ p ∈ polls, p.finish ≤ last) → acknowledges pulledLow ackStart ackEnd last →
    (¬ releasedInTime setIn ackEnd → s.cfg.hsPolls ≤ n → t.pc = 0x0#4 ∧ t.result = 2#3) ∧
    (t.pc = 0x4#4 ∨ t.result = 2#3 →
      ∀ (p : TimedPrim) (l : Level), p ∈ polls → p.prim = .read l → ¬ (ackStart ≤ p.instant ∧ p.instant < ackEnd)) ∧
    (t.result = 2#3 → ∀ (first final : TimedPrim) (between : List TimedPrim), polls = first :: (between ++ [final]) →
      acknowledgementBudget s.cfg ≤ final.instant - first.instant)
end

