-- ==== Sys2Proof/Laws/Codes.lean ====
section
/-! SUPPORT. The codes' simp normal form is the number itself, so that two codes are compared by evaluation. -/

namespace Sys2Proof

@[simp] theorem StateCode.idle_eq : StateCode.idle = 0x0#4 := rfl
@[simp] theorem StateCode.startHigh_eq : StateCode.startHigh = 0x1#4 := rfl
@[simp] theorem StateCode.startLow_eq : StateCode.startLow = 0x2#4 := rfl
@[simp] theorem StateCode.startRelease_eq : StateCode.startRelease = 0x3#4 := rfl
@[simp] theorem StateCode.waitAckLow_eq : StateCode.waitAckLow = 0x4#4 := rfl
@[simp] theorem StateCode.waitHsHigh_eq : StateCode.waitHsHigh = 0x5#4 := rfl
@[simp] theorem StateCode.waitHsLow_eq : StateCode.waitHsLow = 0x6#4 := rfl
@[simp] theorem StateCode.waitBitHigh_eq : StateCode.waitBitHigh = 0x7#4 := rfl
@[simp] theorem StateCode.bitSample_eq : StateCode.bitSample = 0x8#4 := rfl
@[simp] theorem StateCode.bitTail_eq : StateCode.bitTail = 0x9#4 := rfl
@[simp] theorem StateCode.waitBitLow_eq : StateCode.waitBitLow = 0xA#4 := rfl
@[simp] theorem StateCode.bitCommit_eq : StateCode.bitCommit = 0xB#4 := rfl
@[simp] theorem StateCode.done_eq : StateCode.done = 0xC#4 := rfl
@[simp] theorem ResultCode.none_eq : ResultCode.none = 0#3 := rfl
@[simp] theorem ResultCode.success_eq : ResultCode.success = 1#3 := rfl
@[simp] theorem ResultCode.noResponse_eq : ResultCode.noResponse = 2#3 := rfl
@[simp] theorem ResultCode.timeout_eq : ResultCode.timeout = 3#3 := rfl
@[simp] theorem ResultCode.checksumMismatch_eq : ResultCode.checksumMismatch = 4#3 := rfl
@[simp] theorem CmdCode.nop_eq : CmdCode.nop = 0x00#8 := rfl
@[simp] theorem CmdCode.acquire_eq : CmdCode.acquire = 0x01#8 := rfl
@[simp] theorem CmdCode.decode_eq : CmdCode.decode = 0x02#8 := rfl
@[simp] theorem CmdCode.readSensor_eq : CmdCode.readSensor = 0x03#8 := rfl
@[simp] theorem Offset.ctrl_eq : Offset.ctrl = 0x00 := rfl
@[simp] theorem Offset.status_eq : Offset.status = 0x04 := rfl
@[simp] theorem Offset.frameLo_eq : Offset.frameLo = 0x08 := rfl
@[simp] theorem Offset.frameHi_eq : Offset.frameHi = 0x0C := rfl
@[simp] theorem Offset.reading_eq : Offset.reading = 0x10 := rfl
@[simp] theorem Offset.reserved14_eq : Offset.reserved14 = 0x14 := rfl
@[simp] theorem Offset.reserved18_eq : Offset.reserved18 = 0x18 := rfl
@[simp] theorem Offset.reserved1C_eq : Offset.reserved1C = 0x1C := rfl

end Sys2Proof
end

