-- ==== Sys2Proof/Laws/State.lean ====
section
/-! SUPPORT. What each shared operation does to each field of State: one lemma per field per operation, so that no proof
unfolds a record update. -/

namespace Sys2Proof.Machine

/-! ### `issue` -/

@[simp] theorem issue_pc (p : Prim) (s : State) : (issue p s).pc = s.pc := rfl
@[simp] theorem issue_mode (p : Prim) (s : State) : (issue p s).mode = s.mode := rfl
@[simp] theorem issue_poll (p : Prim) (s : State) : (issue p s).poll = s.poll := rfl
@[simp] theorem issue_buf (p : Prim) (s : State) : (issue p s).buf = s.buf := rfl
@[simp] theorem issue_bidx (p : Prim) (s : State) : (issue p s).bidx = s.bidx := rfl
@[simp] theorem issue_acc (p : Prim) (s : State) : (issue p s).acc = s.acc := rfl
@[simp] theorem issue_nbit (p : Prim) (s : State) : (issue p s).nbit = s.nbit := rfl
@[simp] theorem issue_sbit (p : Prim) (s : State) : (issue p s).sbit = s.sbit := rfl
@[simp] theorem issue_result (p : Prim) (s : State) : (issue p s).result = s.result := rfl
@[simp] theorem issue_frame (p : Prim) (s : State) : (issue p s).frame = s.frame := rfl
@[simp] theorem issue_reading (p : Prim) (s : State) : (issue p s).reading = s.reading := rfl
@[simp] theorem issue_dir (p : Prim) (s : State) : (issue p s).dir = s.dir := rfl
@[simp] theorem issue_drv (p : Prim) (s : State) : (issue p s).drv = s.drv := rfl
@[simp] theorem issue_cfg (p : Prim) (s : State) : (issue p s).cfg = s.cfg := rfl
@[simp] theorem issue_turns (p : Prim) (s : State) : (issue p s).turns = s.turns := rfl
@[simp] theorem issue_script (p : Prim) (s : State) : (issue p s).script = s.script := rfl
@[simp] theorem issue_draws (p : Prim) (s : State) : (issue p s).draws = s.draws := rfl
@[simp] theorem issue_trace (p : Prim) (s : State) : (issue p s).trace = p :: s.trace := rfl
@[simp] theorem issue_rdata (p : Prim) (s : State) : (issue p s).rdata = s.rdata := rfl

/-! ### `lineSetDir` -/

@[simp] theorem lineSetDir_pc (d : Dir) (s : State) : (lineSetDir d s).pc = s.pc := rfl
@[simp] theorem lineSetDir_mode (d : Dir) (s : State) : (lineSetDir d s).mode = s.mode := rfl
@[simp] theorem lineSetDir_poll (d : Dir) (s : State) : (lineSetDir d s).poll = s.poll := rfl
@[simp] theorem lineSetDir_buf (d : Dir) (s : State) : (lineSetDir d s).buf = s.buf := rfl
@[simp] theorem lineSetDir_bidx (d : Dir) (s : State) : (lineSetDir d s).bidx = s.bidx := rfl
@[simp] theorem lineSetDir_acc (d : Dir) (s : State) : (lineSetDir d s).acc = s.acc := rfl
@[simp] theorem lineSetDir_nbit (d : Dir) (s : State) : (lineSetDir d s).nbit = s.nbit := rfl
@[simp] theorem lineSetDir_sbit (d : Dir) (s : State) : (lineSetDir d s).sbit = s.sbit := rfl
@[simp] theorem lineSetDir_result (d : Dir) (s : State) : (lineSetDir d s).result = s.result := rfl
@[simp] theorem lineSetDir_frame (d : Dir) (s : State) : (lineSetDir d s).frame = s.frame := rfl
@[simp] theorem lineSetDir_reading (d : Dir) (s : State) : (lineSetDir d s).reading = s.reading := rfl
@[simp] theorem lineSetDir_dir (d : Dir) (s : State) : (lineSetDir d s).dir = d := rfl
@[simp] theorem lineSetDir_drv (d : Dir) (s : State) : (lineSetDir d s).drv = s.drv := rfl
@[simp] theorem lineSetDir_cfg (d : Dir) (s : State) : (lineSetDir d s).cfg = s.cfg := rfl
@[simp] theorem lineSetDir_turns (d : Dir) (s : State) : (lineSetDir d s).turns = s.turns := rfl
@[simp] theorem lineSetDir_script (d : Dir) (s : State) : (lineSetDir d s).script = s.script := rfl
@[simp] theorem lineSetDir_draws (d : Dir) (s : State) : (lineSetDir d s).draws = s.draws := rfl
@[simp] theorem lineSetDir_trace (d : Dir) (s : State) : (lineSetDir d s).trace = .setDir d :: s.trace := rfl
@[simp] theorem lineSetDir_rdata (d : Dir) (s : State) : (lineSetDir d s).rdata = s.rdata := rfl

/-! ### `delayUs` -/

@[simp] theorem delayUs_pc (n : Nat) (s : State) : (delayUs n s).pc = s.pc := rfl
@[simp] theorem delayUs_mode (n : Nat) (s : State) : (delayUs n s).mode = s.mode := rfl
@[simp] theorem delayUs_poll (n : Nat) (s : State) : (delayUs n s).poll = s.poll := rfl
@[simp] theorem delayUs_buf (n : Nat) (s : State) : (delayUs n s).buf = s.buf := rfl
@[simp] theorem delayUs_bidx (n : Nat) (s : State) : (delayUs n s).bidx = s.bidx := rfl
@[simp] theorem delayUs_acc (n : Nat) (s : State) : (delayUs n s).acc = s.acc := rfl
@[simp] theorem delayUs_nbit (n : Nat) (s : State) : (delayUs n s).nbit = s.nbit := rfl
@[simp] theorem delayUs_sbit (n : Nat) (s : State) : (delayUs n s).sbit = s.sbit := rfl
@[simp] theorem delayUs_result (n : Nat) (s : State) : (delayUs n s).result = s.result := rfl
@[simp] theorem delayUs_frame (n : Nat) (s : State) : (delayUs n s).frame = s.frame := rfl
@[simp] theorem delayUs_reading (n : Nat) (s : State) : (delayUs n s).reading = s.reading := rfl
@[simp] theorem delayUs_dir (n : Nat) (s : State) : (delayUs n s).dir = s.dir := rfl
@[simp] theorem delayUs_drv (n : Nat) (s : State) : (delayUs n s).drv = s.drv := rfl
@[simp] theorem delayUs_cfg (n : Nat) (s : State) : (delayUs n s).cfg = s.cfg := rfl
@[simp] theorem delayUs_turns (n : Nat) (s : State) : (delayUs n s).turns = s.turns := rfl
@[simp] theorem delayUs_script (n : Nat) (s : State) : (delayUs n s).script = s.script := rfl
@[simp] theorem delayUs_draws (n : Nat) (s : State) : (delayUs n s).draws = s.draws := rfl
@[simp] theorem delayUs_trace (n : Nat) (s : State) : (delayUs n s).trace = .delayUs n :: s.trace := rfl
@[simp] theorem delayUs_rdata (n : Nat) (s : State) : (delayUs n s).rdata = s.rdata := rfl

/-! ### `delayMs` -/

@[simp] theorem delayMs_pc (n : Nat) (s : State) : (delayMs n s).pc = s.pc := rfl
@[simp] theorem delayMs_mode (n : Nat) (s : State) : (delayMs n s).mode = s.mode := rfl
@[simp] theorem delayMs_poll (n : Nat) (s : State) : (delayMs n s).poll = s.poll := rfl
@[simp] theorem delayMs_buf (n : Nat) (s : State) : (delayMs n s).buf = s.buf := rfl
@[simp] theorem delayMs_bidx (n : Nat) (s : State) : (delayMs n s).bidx = s.bidx := rfl
@[simp] theorem delayMs_acc (n : Nat) (s : State) : (delayMs n s).acc = s.acc := rfl
@[simp] theorem delayMs_nbit (n : Nat) (s : State) : (delayMs n s).nbit = s.nbit := rfl
@[simp] theorem delayMs_sbit (n : Nat) (s : State) : (delayMs n s).sbit = s.sbit := rfl
@[simp] theorem delayMs_result (n : Nat) (s : State) : (delayMs n s).result = s.result := rfl
@[simp] theorem delayMs_frame (n : Nat) (s : State) : (delayMs n s).frame = s.frame := rfl
@[simp] theorem delayMs_reading (n : Nat) (s : State) : (delayMs n s).reading = s.reading := rfl
@[simp] theorem delayMs_dir (n : Nat) (s : State) : (delayMs n s).dir = s.dir := rfl
@[simp] theorem delayMs_drv (n : Nat) (s : State) : (delayMs n s).drv = s.drv := rfl
@[simp] theorem delayMs_cfg (n : Nat) (s : State) : (delayMs n s).cfg = s.cfg := rfl
@[simp] theorem delayMs_turns (n : Nat) (s : State) : (delayMs n s).turns = s.turns := rfl
@[simp] theorem delayMs_script (n : Nat) (s : State) : (delayMs n s).script = s.script := rfl
@[simp] theorem delayMs_draws (n : Nat) (s : State) : (delayMs n s).draws = s.draws := rfl
@[simp] theorem delayMs_trace (n : Nat) (s : State) : (delayMs n s).trace = .delayMs n :: s.trace := rfl
@[simp] theorem delayMs_rdata (n : Nat) (s : State) : (delayMs n s).rdata = s.rdata := rfl

/-! ### `tookLevel` -/

@[simp] theorem tookLevel_pc (s : State) : (tookLevel s).pc = s.pc := rfl
@[simp] theorem tookLevel_mode (s : State) : (tookLevel s).mode = s.mode := rfl
@[simp] theorem tookLevel_poll (s : State) : (tookLevel s).poll = s.poll := rfl
@[simp] theorem tookLevel_buf (s : State) : (tookLevel s).buf = s.buf := rfl
@[simp] theorem tookLevel_bidx (s : State) : (tookLevel s).bidx = s.bidx := rfl
@[simp] theorem tookLevel_acc (s : State) : (tookLevel s).acc = s.acc := rfl
@[simp] theorem tookLevel_nbit (s : State) : (tookLevel s).nbit = s.nbit := rfl
@[simp] theorem tookLevel_sbit (s : State) : (tookLevel s).sbit = s.sbit := rfl
@[simp] theorem tookLevel_result (s : State) : (tookLevel s).result = s.result := rfl
@[simp] theorem tookLevel_frame (s : State) : (tookLevel s).frame = s.frame := rfl
@[simp] theorem tookLevel_reading (s : State) : (tookLevel s).reading = s.reading := rfl
@[simp] theorem tookLevel_dir (s : State) : (tookLevel s).dir = s.dir := rfl
@[simp] theorem tookLevel_drv (s : State) : (tookLevel s).drv = s.drv := rfl
@[simp] theorem tookLevel_cfg (s : State) : (tookLevel s).cfg = s.cfg := rfl
@[simp] theorem tookLevel_turns (s : State) : (tookLevel s).turns = s.turns := rfl
@[simp] theorem tookLevel_script (s : State) : (tookLevel s).script = s.script.tail := rfl
@[simp] theorem tookLevel_draws (s : State) : (tookLevel s).draws = s.draws + 1 := rfl
@[simp] theorem tookLevel_trace (s : State) : (tookLevel s).trace = .read s.nextLevel :: s.trace := rfl
@[simp] theorem tookLevel_rdata (s : State) : (tookLevel s).rdata = s.rdata := rfl

/-! ### `goTo` -/

@[simp] theorem goTo_pc (c : BitVec 4) (s : State) : (goTo c s).pc = c := rfl
@[simp] theorem goTo_mode (c : BitVec 4) (s : State) : (goTo c s).mode = s.mode := rfl
@[simp] theorem goTo_poll (c : BitVec 4) (s : State) : (goTo c s).poll = s.poll := rfl
@[simp] theorem goTo_buf (c : BitVec 4) (s : State) : (goTo c s).buf = s.buf := rfl
@[simp] theorem goTo_bidx (c : BitVec 4) (s : State) : (goTo c s).bidx = s.bidx := rfl
@[simp] theorem goTo_acc (c : BitVec 4) (s : State) : (goTo c s).acc = s.acc := rfl
@[simp] theorem goTo_nbit (c : BitVec 4) (s : State) : (goTo c s).nbit = s.nbit := rfl
@[simp] theorem goTo_sbit (c : BitVec 4) (s : State) : (goTo c s).sbit = s.sbit := rfl
@[simp] theorem goTo_result (c : BitVec 4) (s : State) : (goTo c s).result = s.result := rfl
@[simp] theorem goTo_frame (c : BitVec 4) (s : State) : (goTo c s).frame = s.frame := rfl
@[simp] theorem goTo_reading (c : BitVec 4) (s : State) : (goTo c s).reading = s.reading := rfl
@[simp] theorem goTo_dir (c : BitVec 4) (s : State) : (goTo c s).dir = s.dir := rfl
@[simp] theorem goTo_drv (c : BitVec 4) (s : State) : (goTo c s).drv = s.drv := rfl
@[simp] theorem goTo_cfg (c : BitVec 4) (s : State) : (goTo c s).cfg = s.cfg := rfl
@[simp] theorem goTo_turns (c : BitVec 4) (s : State) : (goTo c s).turns = s.turns := rfl
@[simp] theorem goTo_script (c : BitVec 4) (s : State) : (goTo c s).script = s.script := rfl
@[simp] theorem goTo_draws (c : BitVec 4) (s : State) : (goTo c s).draws = s.draws := rfl
@[simp] theorem goTo_trace (c : BitVec 4) (s : State) : (goTo c s).trace = s.trace := rfl
@[simp] theorem goTo_rdata (c : BitVec 4) (s : State) : (goTo c s).rdata = s.rdata := rfl

/-! ### `enterWait` -/

@[simp] theorem enterWait_pc (c : BitVec 4) (s : State) : (enterWait c s).pc = c := rfl
@[simp] theorem enterWait_mode (c : BitVec 4) (s : State) : (enterWait c s).mode = s.mode := rfl
@[simp] theorem enterWait_poll (c : BitVec 4) (s : State) : (enterWait c s).poll = 0 := rfl
@[simp] theorem enterWait_buf (c : BitVec 4) (s : State) : (enterWait c s).buf = s.buf := rfl
@[simp] theorem enterWait_bidx (c : BitVec 4) (s : State) : (enterWait c s).bidx = s.bidx := rfl
@[simp] theorem enterWait_acc (c : BitVec 4) (s : State) : (enterWait c s).acc = s.acc := rfl
@[simp] theorem enterWait_nbit (c : BitVec 4) (s : State) : (enterWait c s).nbit = s.nbit := rfl
@[simp] theorem enterWait_sbit (c : BitVec 4) (s : State) : (enterWait c s).sbit = s.sbit := rfl
@[simp] theorem enterWait_result (c : BitVec 4) (s : State) : (enterWait c s).result = s.result := rfl
@[simp] theorem enterWait_frame (c : BitVec 4) (s : State) : (enterWait c s).frame = s.frame := rfl
@[simp] theorem enterWait_reading (c : BitVec 4) (s : State) : (enterWait c s).reading = s.reading := rfl
@[simp] theorem enterWait_dir (c : BitVec 4) (s : State) : (enterWait c s).dir = s.dir := rfl
@[simp] theorem enterWait_drv (c : BitVec 4) (s : State) : (enterWait c s).drv = s.drv := rfl
@[simp] theorem enterWait_cfg (c : BitVec 4) (s : State) : (enterWait c s).cfg = s.cfg := rfl
@[simp] theorem enterWait_turns (c : BitVec 4) (s : State) : (enterWait c s).turns = s.turns := rfl
@[simp] theorem enterWait_script (c : BitVec 4) (s : State) : (enterWait c s).script = s.script := rfl
@[simp] theorem enterWait_draws (c : BitVec 4) (s : State) : (enterWait c s).draws = s.draws := rfl
@[simp] theorem enterWait_trace (c : BitVec 4) (s : State) : (enterWait c s).trace = s.trace := rfl
@[simp] theorem enterWait_rdata (c : BitVec 4) (s : State) : (enterWait c s).rdata = s.rdata := rfl

/-! ### `raiseFail` -/

@[simp] theorem raiseFail_pc (k : FailKind) (s : State) : (raiseFail k s).pc = StateCode.idle := rfl
@[simp] theorem raiseFail_mode (k : FailKind) (s : State) : (raiseFail k s).mode = s.mode := rfl
@[simp] theorem raiseFail_poll (k : FailKind) (s : State) : (raiseFail k s).poll = s.poll := rfl
@[simp] theorem raiseFail_buf (k : FailKind) (s : State) : (raiseFail k s).buf = s.buf := rfl
@[simp] theorem raiseFail_bidx (k : FailKind) (s : State) : (raiseFail k s).bidx = s.bidx := rfl
@[simp] theorem raiseFail_acc (k : FailKind) (s : State) : (raiseFail k s).acc = s.acc := rfl
@[simp] theorem raiseFail_nbit (k : FailKind) (s : State) : (raiseFail k s).nbit = s.nbit := rfl
@[simp] theorem raiseFail_sbit (k : FailKind) (s : State) : (raiseFail k s).sbit = s.sbit := rfl
@[simp] theorem raiseFail_result (k : FailKind) (s : State) : (raiseFail k s).result = failCode k := rfl
@[simp] theorem raiseFail_frame (k : FailKind) (s : State) : (raiseFail k s).frame = s.frame := rfl
@[simp] theorem raiseFail_reading (k : FailKind) (s : State) : (raiseFail k s).reading = s.reading := rfl
@[simp] theorem raiseFail_dir (k : FailKind) (s : State) : (raiseFail k s).dir = s.dir := rfl
@[simp] theorem raiseFail_drv (k : FailKind) (s : State) : (raiseFail k s).drv = s.drv := rfl
@[simp] theorem raiseFail_cfg (k : FailKind) (s : State) : (raiseFail k s).cfg = s.cfg := rfl
@[simp] theorem raiseFail_turns (k : FailKind) (s : State) : (raiseFail k s).turns = s.turns := rfl
@[simp] theorem raiseFail_script (k : FailKind) (s : State) : (raiseFail k s).script = s.script := rfl
@[simp] theorem raiseFail_draws (k : FailKind) (s : State) : (raiseFail k s).draws = s.draws := rfl
@[simp] theorem raiseFail_trace (k : FailKind) (s : State) : (raiseFail k s).trace = s.trace := rfl
@[simp] theorem raiseFail_rdata (k : FailKind) (s : State) : (raiseFail k s).rdata = s.rdata := rfl

/-! ### `acceptTransaction` -/

@[simp] theorem acceptTransaction_pc (m : BitVec 1) (s : State) : (acceptTransaction m s).pc = StateCode.startHigh := rfl
@[simp] theorem acceptTransaction_mode (m : BitVec 1) (s : State) : (acceptTransaction m s).mode = m := rfl
@[simp] theorem acceptTransaction_poll (m : BitVec 1) (s : State) : (acceptTransaction m s).poll = 0 := rfl
@[simp] theorem acceptTransaction_buf (m : BitVec 1) (s : State) : (acceptTransaction m s).buf = FrameBuffer.zero := rfl
@[simp] theorem acceptTransaction_bidx (m : BitVec 1) (s : State) : (acceptTransaction m s).bidx = 0#3 := rfl
@[simp] theorem acceptTransaction_acc (m : BitVec 1) (s : State) : (acceptTransaction m s).acc = 0x00#8 := rfl
@[simp] theorem acceptTransaction_nbit (m : BitVec 1) (s : State) : (acceptTransaction m s).nbit = 0#4 := rfl
@[simp] theorem acceptTransaction_sbit (m : BitVec 1) (s : State) : (acceptTransaction m s).sbit = 0#1 := rfl
@[simp] theorem acceptTransaction_result (m : BitVec 1) (s : State) : (acceptTransaction m s).result = ResultCode.none := rfl
@[simp] theorem acceptTransaction_frame (m : BitVec 1) (s : State) : (acceptTransaction m s).frame = s.frame := rfl
@[simp] theorem acceptTransaction_reading (m : BitVec 1) (s : State) : (acceptTransaction m s).reading = s.reading := rfl
@[simp] theorem acceptTransaction_dir (m : BitVec 1) (s : State) : (acceptTransaction m s).dir = s.dir := rfl
@[simp] theorem acceptTransaction_drv (m : BitVec 1) (s : State) : (acceptTransaction m s).drv = s.drv := rfl
@[simp] theorem acceptTransaction_cfg (m : BitVec 1) (s : State) : (acceptTransaction m s).cfg = s.cfg := rfl
@[simp] theorem acceptTransaction_turns (m : BitVec 1) (s : State) : (acceptTransaction m s).turns = s.turns := rfl
@[simp] theorem acceptTransaction_script (m : BitVec 1) (s : State) : (acceptTransaction m s).script = s.script := rfl
@[simp] theorem acceptTransaction_draws (m : BitVec 1) (s : State) : (acceptTransaction m s).draws = s.draws := rfl
@[simp] theorem acceptTransaction_trace (m : BitVec 1) (s : State) : (acceptTransaction m s).trace = s.trace := rfl
@[simp] theorem acceptTransaction_rdata (m : BitVec 1) (s : State) : (acceptTransaction m s).rdata = s.rdata := rfl

/-! ### `reply` -/

@[simp] theorem reply_pc (v : Word) (s : State) : (reply v s).pc = s.pc := rfl
@[simp] theorem reply_mode (v : Word) (s : State) : (reply v s).mode = s.mode := rfl
@[simp] theorem reply_poll (v : Word) (s : State) : (reply v s).poll = s.poll := rfl
@[simp] theorem reply_buf (v : Word) (s : State) : (reply v s).buf = s.buf := rfl
@[simp] theorem reply_bidx (v : Word) (s : State) : (reply v s).bidx = s.bidx := rfl
@[simp] theorem reply_acc (v : Word) (s : State) : (reply v s).acc = s.acc := rfl
@[simp] theorem reply_nbit (v : Word) (s : State) : (reply v s).nbit = s.nbit := rfl
@[simp] theorem reply_sbit (v : Word) (s : State) : (reply v s).sbit = s.sbit := rfl
@[simp] theorem reply_result (v : Word) (s : State) : (reply v s).result = s.result := rfl
@[simp] theorem reply_frame (v : Word) (s : State) : (reply v s).frame = s.frame := rfl
@[simp] theorem reply_reading (v : Word) (s : State) : (reply v s).reading = s.reading := rfl
@[simp] theorem reply_dir (v : Word) (s : State) : (reply v s).dir = s.dir := rfl
@[simp] theorem reply_drv (v : Word) (s : State) : (reply v s).drv = s.drv := rfl
@[simp] theorem reply_cfg (v : Word) (s : State) : (reply v s).cfg = s.cfg := rfl
@[simp] theorem reply_turns (v : Word) (s : State) : (reply v s).turns = s.turns := rfl
@[simp] theorem reply_script (v : Word) (s : State) : (reply v s).script = s.script := rfl
@[simp] theorem reply_draws (v : Word) (s : State) : (reply v s).draws = s.draws := rfl
@[simp] theorem reply_trace (v : Word) (s : State) : (reply v s).trace = s.trace := rfl
@[simp] theorem reply_rdata (v : Word) (s : State) : (reply v s).rdata = v := rfl

/-! ### `resetBlock` -/

@[simp] theorem resetBlock_pc (s : State) : (resetBlock s).pc = 0x0#4 := rfl
@[simp] theorem resetBlock_mode (s : State) : (resetBlock s).mode = 0#1 := rfl
@[simp] theorem resetBlock_poll (s : State) : (resetBlock s).poll = 0 := rfl
@[simp] theorem resetBlock_buf (s : State) : (resetBlock s).buf = FrameBuffer.zero := rfl
@[simp] theorem resetBlock_bidx (s : State) : (resetBlock s).bidx = 0#3 := rfl
@[simp] theorem resetBlock_acc (s : State) : (resetBlock s).acc = 0x00#8 := rfl
@[simp] theorem resetBlock_nbit (s : State) : (resetBlock s).nbit = 0#4 := rfl
@[simp] theorem resetBlock_sbit (s : State) : (resetBlock s).sbit = 0#1 := rfl
@[simp] theorem resetBlock_result (s : State) : (resetBlock s).result = 0#3 := rfl
@[simp] theorem resetBlock_frame (s : State) : (resetBlock s).frame = 0#40 := rfl
@[simp] theorem resetBlock_reading (s : State) : (resetBlock s).reading = 0#32 := rfl
@[simp] theorem resetBlock_dir (s : State) : (resetBlock s).dir = .input := rfl
@[simp] theorem resetBlock_drv (s : State) : (resetBlock s).drv = .high := rfl
@[simp] theorem resetBlock_cfg (s : State) : (resetBlock s).cfg = s.cfg := rfl
@[simp] theorem resetBlock_turns (s : State) : (resetBlock s).turns = s.turns := rfl
@[simp] theorem resetBlock_script (s : State) : (resetBlock s).script = s.script := rfl
@[simp] theorem resetBlock_draws (s : State) : (resetBlock s).draws = s.draws := rfl
@[simp] theorem resetBlock_trace (s : State) : (resetBlock s).trace = s.trace := rfl
@[simp] theorem resetBlock_rdata (s : State) : (resetBlock s).rdata = s.rdata := rfl

/-! ### `recordDecode`: RESULT and READING alone -/

@[simp] theorem recordDecode_pc (f : Frame) (s : State) : (recordDecode f s).pc = s.pc := by
  unfold recordDecode; split <;> rfl
@[simp] theorem recordDecode_mode (f : Frame) (s : State) : (recordDecode f s).mode = s.mode := by
  unfold recordDecode; split <;> rfl
@[simp] theorem recordDecode_poll (f : Frame) (s : State) : (recordDecode f s).poll = s.poll := by
  unfold recordDecode; split <;> rfl
@[simp] theorem recordDecode_buf (f : Frame) (s : State) : (recordDecode f s).buf = s.buf := by
  unfold recordDecode; split <;> rfl
@[simp] theorem recordDecode_bidx (f : Frame) (s : State) : (recordDecode f s).bidx = s.bidx := by
  unfold recordDecode; split <;> rfl
@[simp] theorem recordDecode_acc (f : Frame) (s : State) : (recordDecode f s).acc = s.acc := by
  unfold recordDecode; split <;> rfl
@[simp] theorem recordDecode_nbit (f : Frame) (s : State) : (recordDecode f s).nbit = s.nbit := by
  unfold recordDecode; split <;> rfl
@[simp] theorem recordDecode_sbit (f : Frame) (s : State) : (recordDecode f s).sbit = s.sbit := by
  unfold recordDecode; split <;> rfl
@[simp] theorem recordDecode_frame (f : Frame) (s : State) : (recordDecode f s).frame = s.frame := by
  unfold recordDecode; split <;> rfl
@[simp] theorem recordDecode_dir (f : Frame) (s : State) : (recordDecode f s).dir = s.dir := by
  unfold recordDecode; split <;> rfl
@[simp] theorem recordDecode_drv (f : Frame) (s : State) : (recordDecode f s).drv = s.drv := by
  unfold recordDecode; split <;> rfl
@[simp] theorem recordDecode_cfg (f : Frame) (s : State) : (recordDecode f s).cfg = s.cfg := by
  unfold recordDecode; split <;> rfl
@[simp] theorem recordDecode_turns (f : Frame) (s : State) : (recordDecode f s).turns = s.turns := by
  unfold recordDecode; split <;> rfl
@[simp] theorem recordDecode_script (f : Frame) (s : State) : (recordDecode f s).script = s.script := by
  unfold recordDecode; split <;> rfl
@[simp] theorem recordDecode_draws (f : Frame) (s : State) : (recordDecode f s).draws = s.draws := by
  unfold recordDecode; split <;> rfl
@[simp] theorem recordDecode_trace (f : Frame) (s : State) : (recordDecode f s).trace = s.trace := by
  unfold recordDecode; split <;> rfl
@[simp] theorem recordDecode_rdata (f : Frame) (s : State) : (recordDecode f s).rdata = s.rdata := by
  unfold recordDecode; split <;> rfl

theorem recordDecode_ok {f : Frame} {r : Reading} (s : State) (h : decodeFrame f = .ok r) :
    recordDecode f s = { s with reading := readingWord r, result := ResultCode.success } := by
  simp [recordDecode, h]

theorem recordDecode_mismatch {f : Frame} (s : State) (h : decodeFrame f = .checksumMismatch) :
    recordDecode f s = { s with result := ResultCode.checksumMismatch } := by
  simp [recordDecode, h]

end Sys2Proof.Machine
end

