-- ==== Sys2Proof/Laws/Ops.lean ====
section
/-! SUPPORT. One lemma per shared operation that says everything it can answer; proofs cite these instead of unfolding. -/

namespace Sys2Proof.Machine

theorem busy_iff (s : State) : s.busy = true ↔ s.pc ≠ StateCode.idle := by
  simp [State.busy]

theorem not_busy_iff (s : State) : s.busy = false ↔ s.pc = StateCode.idle := by
  simp [State.busy]

theorem whenIdle_idle {s : State} (effect : State) (h : s.pc = StateCode.idle) : whenIdle s effect = .next effect := by
  simp [whenIdle, State.busy, h]

theorem whenIdle_busy {s : State} (effect : State) (h : s.pc ≠ StateCode.idle) : whenIdle s effect = .next s := by
  simp [whenIdle, State.busy, h]

/-- A command or FRAME write always goes on: with its effect when idle, with none while BUSY (R106, R108). -/
theorem whenIdle_cases {s t effect : State} (h : whenIdle s effect = .next t) :
    (s.pc = StateCode.idle ∧ t = effect) ∨ (s.pc ≠ StateCode.idle ∧ t = s) := by
  by_cases hp : s.pc = StateCode.idle
  · rw [whenIdle_idle _ hp] at h; cases h; exact .inl ⟨hp, rfl⟩
  · rw [whenIdle_busy _ hp] at h; cases h; exact .inr ⟨hp, rfl⟩

theorem lineWrite_output {s : State} (l : Level) (k : State → Out) (h : s.dir = .output) :
    lineWrite l s k = k (issue (.write l) { s with drv := l }) := by
  simp [lineWrite, h]

theorem lineWrite_input {s : State} (l : Level) (k : State → Out) (h : s.dir = .input) :
    lineWrite l s k = .fault .lineWriteWhileInput := by
  simp [lineWrite, h]

theorem lineRead_input {s : State} (k : Level → State → Out) (h : s.dir = .input) :
    lineRead s k = k s.nextLevel (tookLevel s) := by
  simp [lineRead, h]

theorem lineRead_output {s : State} (k : Level → State → Out) (h : s.dir = .output) :
    lineRead s k = .fault .lineReadWhileOutput := by
  simp [lineRead, h]

@[simp] theorem nextLevel_cons {s : State} {l : Level} {ls : List Level} (h : s.script = l :: ls) : s.nextLevel = l := by
  simp [State.nextLevel, h]

@[simp] theorem nextLevel_nil {s : State} (h : s.script = []) : s.nextLevel = Config.freeLevel s.draws := by
  simp [State.nextLevel, h]

/-- One poll iteration goes on in one of three ways (R135): the target was read, the bound is used up, or it waits. -/
theorem pollOnce_cases {target : Level} {bound : Config.Bound} {kind : FailKind} {following : BitVec 4} {s t : State}
    (h : pollOnce target bound kind following s = .next t) :
    s.dir = .input ∧
      ((s.nextLevel = target ∧ t = { tookLevel s with poll := 0, pc := following }) ∨
       (s.nextLevel ≠ target ∧ exhausted bound (s.poll + 1) = true ∧
          t = { tookLevel s with poll := s.poll + 1, result := failCode kind, pc := StateCode.idle }) ∨
       (s.nextLevel ≠ target ∧ exhausted bound (s.poll + 1) = false ∧
          t = { tookLevel s with
                  poll := s.poll + 1, trace := .delayUs s.cfg.pollUs :: .read s.nextLevel :: s.trace })) := by
  unfold pollOnce lineRead at h
  split at h
  case isFalse => cases h
  case isTrue hd =>
    refine ⟨hd, ?_⟩
    by_cases hl : s.nextLevel = target
    · simp only [hl, if_true] at h; cases h; exact .inl ⟨hl, rfl⟩
    · by_cases he : exhausted bound (s.poll + 1) = true
      · simp only [hl, if_false, tookLevel_poll, he, if_true] at h; cases h; exact .inr (.inl ⟨hl, he, rfl⟩)
      · simp only [hl, if_false, tookLevel_poll, he] at h
        cases h
        exact .inr (.inr ⟨hl, by simpa using he, rfl⟩)

/-- A poll iteration always goes on while the pin is an input. -/
theorem pollOnce_next {target : Level} {bound : Config.Bound} {kind : FailKind} {following : BitVec 4} {s : State}
    (h : s.dir = .input) : ∃ t, pollOnce target bound kind following s = .next t := by
  rw [pollOnce, lineRead_input _ h]
  split
  · exact ⟨_, rfl⟩
  · dsimp only
    split
    · exact ⟨_, rfl⟩
    · exact ⟨_, rfl⟩

/-- The buffer has a place exactly at the indexes 0 to 4 (R24). -/
theorem store_isSome_iff (b : FrameBuffer) (i : BitVec 3) (v : Byte) : (b.store i v).isSome = true ↔ i ≤ 4#3 := by
  have hi := i.isLt
  unfold FrameBuffer.store
  rw [BitVec.le_def]
  split <;> simp_all
  omega

/-- What was stored is loaded back. -/
theorem load_store {b b' : FrameBuffer} {i : BitVec 3} {v : Byte} (h : b.store i v = some b') : b'.load i = some v := by
  unfold FrameBuffer.store at h
  unfold FrameBuffer.load
  split at h <;> simp_all <;> (subst h; rfl)

/-- Every other byte stays. -/
theorem load_store_of_ne {b b' : FrameBuffer} {i j : BitVec 3} {v : Byte} (h : b.store i v = some b') (hij : i ≠ j) :
    b'.load j = b.load j := by
  have hn : i.toNat ≠ j.toNat := fun e => hij (BitVec.eq_of_toNat_eq e)
  unfold FrameBuffer.store at h
  unfold FrameBuffer.load
  split at h <;> simp_all <;> subst h <;> split <;> simp_all

end Sys2Proof.Machine
end

