-- ==== Sys2Proof/Laws/Step.lean ====
section
/-! SUPPORT. What one step can do, said once: which turn it took, and what each kind of turn can answer. Claims about `step`
follow from these without unfolding it. -/

namespace Sys2Proof.Machine

theorem illFormed_eq_none_iff (s : State) : illFormed s = none ↔ CodesOk s := by
  unfold illFormed CodesOk
  split
  · simp_all
  · split
    · simp_all
    · split <;> simp_all

/-- A step of a well-coded state is its turn. -/
theorem step_of_codesOk {s : State} (h : CodesOk s) :
    step s = match fetch s with
      | .instr i s' => exec i s'
      | .blockReset s' => .next (resetBlock s')
      | .reject r => .refused (refusalOf r) := by
  simp only [step, (illFormed_eq_none_iff s).mpr h] <;> rfl

/-- The turn a step took, if it went on. -/
theorem step_next_cases {s t : State} (h : step s = .next t) :
    CodesOk s ∧
      ((engineTurn s ∧ ∃ i, decode (.state s.pc) = .ok i ∧ exec i { s with turns := s.turns.tail } = .next t) ∨
       (∃ a rest i, s.turns = .access a :: rest ∧ decodeAccess s.cfg.regBase a = .ok i ∧
          exec i { s with turns := rest } = .next t) ∨
       (∃ rest, s.turns = .waitIdle :: rest ∧ t = reply s.statusWord { s with turns := afterWaitIdle s rest }) ∨
       (∃ rest, s.turns = .reset :: rest ∧ t = resetBlock { s with turns := rest })) := by
  have hc : CodesOk s := by
    rw [← illFormed_eq_none_iff]
    unfold step at h
    split at h
    · cases h
    · assumption
  refine ⟨hc, ?_⟩
  rw [step_of_codesOk hc] at h
  unfold fetch at h
  cases ht : s.turns with
  | nil =>
    simp only [ht, runAt] at h
    cases hd : decode (.state s.pc) with
    | error r => simp [hd] at h
    | ok i =>
      simp only [hd] at h
      have hs : { s with turns := s.turns.tail } = s := by cases s; simp_all
      exact .inl ⟨.inl ht, i, rfl, by rw [← ht, hs]; exact h⟩
  | cons turn rest =>
    cases turn with
    | engine =>
      simp only [ht, runAt] at h
      cases hd : decode (.state s.pc) with
      | error r => simp [hd] at h
      | ok i =>
        simp only [hd] at h
        exact .inl ⟨.inr (by simp [ht]), i, rfl, by simpa using h⟩
    | access a =>
      simp only [ht, runAt] at h
      cases hd : decodeAccess s.cfg.regBase a with
      | error r => simp [hd] at h
      | ok i =>
        simp only [hd] at h
        exact .inr (.inl ⟨a, rest, i, rfl, hd, h⟩)
    | waitIdle =>
      have hd : decodeAccess s.cfg.regBase (readStatusAccess s.cfg.regBase) = .ok .rdStatus := by
        simp [decodeAccess, readStatusAccess, accessCode, decode, checkAccess, readAt, Offset.status]
      simp only [ht, runAt, hd] at h
      cases h
      exact .inr (.inr (.inl ⟨rest, rfl, rfl⟩))
    | reset =>
      simp only [ht] at h
      cases h
      exact .inr (.inr (.inr ⟨rest, rfl, rfl⟩))

/-- The table of R80, as the decoder has it. -/
theorem decodeState_table : ∀ c : BitVec 4, decodeState c = .error .reservedStateCode ∨
    (c = StateCode.idle ∧ decodeState c = .ok .idle) ∨
    (c = StateCode.startHigh ∧ decodeState c = .ok .startHigh) ∨
    (c = StateCode.startLow ∧ decodeState c = .ok .startLow) ∨
    (c = StateCode.startRelease ∧ decodeState c = .ok .startRelease) ∨
    (c = StateCode.waitAckLow ∧ decodeState c = .ok .waitAckLow) ∨
    (c = StateCode.waitHsHigh ∧ decodeState c = .ok .waitHsHigh) ∨
    (c = StateCode.waitHsLow ∧ decodeState c = .ok .waitHsLow) ∨
    (c = StateCode.waitBitHigh ∧ decodeState c = .ok .waitBitHigh) ∨
    (c = StateCode.bitSample ∧ decodeState c = .ok .bitSample) ∨
    (c = StateCode.bitTail ∧ decodeState c = .ok .bitTail) ∨
    (c = StateCode.waitBitLow ∧ decodeState c = .ok .waitBitLow) ∨
    (c = StateCode.bitCommit ∧ decodeState c = .ok .bitCommit) ∨
    (c = StateCode.done ∧ decodeState c = .ok .done) := by
  decide

/-- What an engine turn runs: the state's instruction, whose code is `pc`. -/
theorem decodeState_ok {c : BitVec 4} {i : Instr} (h : decode (.state c) = .ok i) :
    (c = StateCode.idle ∧ i = .idle) ∨ (c = StateCode.startHigh ∧ i = .startHigh) ∨
    (c = StateCode.startLow ∧ i = .startLow) ∨ (c = StateCode.startRelease ∧ i = .startRelease) ∨
    (c = StateCode.waitAckLow ∧ i = .waitAckLow) ∨ (c = StateCode.waitHsHigh ∧ i = .waitHsHigh) ∨
    (c = StateCode.waitHsLow ∧ i = .waitHsLow) ∨ (c = StateCode.waitBitHigh ∧ i = .waitBitHigh) ∨
    (c = StateCode.bitSample ∧ i = .bitSample) ∨ (c = StateCode.bitTail ∧ i = .bitTail) ∨
    (c = StateCode.waitBitLow ∧ i = .waitBitLow) ∨ (c = StateCode.bitCommit ∧ i = .bitCommit) ∨
    (c = StateCode.done ∧ i = .done) := by
  have h : decodeState c = .ok i := h
  rcases decodeState_table c with e | ⟨rfl, e⟩ | ⟨rfl, e⟩ | ⟨rfl, e⟩ | ⟨rfl, e⟩ | ⟨rfl, e⟩ | ⟨rfl, e⟩ | ⟨rfl, e⟩ | ⟨rfl, e⟩
    | ⟨rfl, e⟩ | ⟨rfl, e⟩ | ⟨rfl, e⟩ | ⟨rfl, e⟩ | ⟨rfl, e⟩ <;> rw [e] at h <;> cases h <;> simp

/-- The defined accesses, and the instructions they are (R54, R28). -/
theorem decodeAccess_ok {base : Nat} {a : Access} {i : Instr} (h : decodeAccess base a = .ok i) :
    ∃ off, definedOffset off ∧
      ((a = .memRead (base + off) 4 ∧ i = readAt off) ∨ ∃ v, a = .memWrite (base + off) 4 v ∧ i = writeAt off v) := by
  cases a with
  | memRead addr width =>
    by_cases hb : addr < base
    · simp [decodeAccess, accessCode, hb] at h
    · simp only [decodeAccess, accessCode, hb, if_false, decode] at h
      split at h
      case h_2 => cases h
      case h_1 e =>
        obtain ⟨h4, hle, rfl⟩ := (checkAccess_ok_iff _ _).mp e
        cases h
        exact ⟨addr - base, ⟨h4, hle⟩, .inl ⟨by rw [Nat.add_sub_cancel' (by omega)], rfl⟩⟩
  | memWrite addr width v =>
    by_cases hb : addr < base
    · simp [decodeAccess, accessCode, hb] at h
    · simp only [decodeAccess, accessCode, hb, if_false, decode] at h
      split at h
      case h_2 => cases h
      case h_1 e =>
        obtain ⟨h4, hle, rfl⟩ := (checkAccess_ok_iff _ _).mp e
        cases h
        exact ⟨addr - base, ⟨h4, hle⟩, .inr ⟨v, by rw [Nat.add_sub_cancel' (by omega)], rfl⟩⟩

/-- The eight offsets of R54. -/
theorem definedOffset_cases {off : Nat} (h : definedOffset off) :
    off = 0x00 ∨ off = 0x04 ∨ off = 0x08 ∨ off = 0x0C ∨ off = 0x10 ∨ off = 0x14 ∨ off = 0x18 ∨ off = 0x1C := by
  have := h.1; have := h.2; omega

/-- A host read answers a value and changes nothing else (R56, R107). -/
theorem exec_readAt (off : Nat) (s : State) : ∃ v, exec (readAt off) s = .next (reply v s) := by
  unfold readAt
  repeat' split
  all_goals exact ⟨_, rfl⟩

/-- A write of CTRL runs the command its low byte selects (R76, R77). -/
theorem exec_wrCtrl (v : Word) (s : State) : exec (.wrCtrl v) s = exec (decodeCommand (commandByte v)) s := by
  show execWrCtrl v s = _
  unfold execWrCtrl decodeCommand
  dsimp only
  repeat' split
  all_goals rfl

/-- What a command can do: nothing, start a transaction, or decode FRAME (R101 to R106). -/
theorem exec_command_cases {c : BitVec 8} {s t : State} (h : exec (decodeCommand c) s = .next t) :
    t = s ∨ (s.pc = StateCode.idle ∧
      ((c = CmdCode.acquire ∧ t = acceptTransaction 0#1 s) ∨ (c = CmdCode.readSensor ∧ t = acceptTransaction 1#1 s) ∨
       (c = CmdCode.decode ∧ t = recordDecode s.frame s))) := by
  unfold decodeCommand at h
  split at h
  · cases h; exact .inl rfl
  split at h
  case isTrue hc =>
    rcases whenIdle_cases h with ⟨hp, rfl⟩ | ⟨-, rfl⟩
    · exact .inr ⟨hp, .inl ⟨hc, rfl⟩⟩
    · exact .inl rfl
  split at h
  case isTrue hc =>
    rcases whenIdle_cases h with ⟨hp, rfl⟩ | ⟨-, rfl⟩
    · exact .inr ⟨hp, .inr (.inr ⟨hc, rfl⟩)⟩
    · exact .inl rfl
  split at h
  case isTrue hc =>
    rcases whenIdle_cases h with ⟨hp, rfl⟩ | ⟨-, rfl⟩
    · exact .inr ⟨hp, .inr (.inl ⟨hc, rfl⟩)⟩
    · exact .inl rfl
  repeat' (split at h)
  all_goals (cases h; exact .inl rfl)

/-- What a host write can do (R100, R108, R109). -/
theorem exec_writeAt_cases {off : Nat} {v : Word} {s t : State} (ho : definedOffset off)
    (h : exec (writeAt off v) s = .next t) :
    t = s ∨ (s.pc = StateCode.idle ∧
      ((off = 0x00 ∧ commandByte v = CmdCode.acquire ∧ t = acceptTransaction 0#1 s) ∨
       (off = 0x00 ∧ commandByte v = CmdCode.readSensor ∧ t = acceptTransaction 1#1 s) ∨
       (off = 0x00 ∧ commandByte v = CmdCode.decode ∧ t = recordDecode s.frame s) ∨
       (off = 0x08 ∧ t = { s with frame := withFrameLo s.frame v }) ∨
       (off = 0x0C ∧ t = { s with frame := withFrameHi s.frame v }))) := by
  rcases definedOffset_cases ho with rfl | rfl | rfl | rfl | rfl | rfl | rfl | rfl
  · have h : exec (.wrCtrl v) s = .next t := h
    rw [exec_wrCtrl] at h
    rcases exec_command_cases h with rfl | ⟨hp, hc | hc | hc⟩
    · exact .inl rfl
    · exact .inr ⟨hp, .inl ⟨rfl, hc⟩⟩
    · exact .inr ⟨hp, .inr (.inl ⟨rfl, hc⟩)⟩
    · exact .inr ⟨hp, .inr (.inr (.inl ⟨rfl, hc⟩))⟩
  · cases h; exact .inl rfl
  · rcases whenIdle_cases h with ⟨hp, rfl⟩ | ⟨-, rfl⟩
    · exact .inr ⟨hp, .inr (.inr (.inr (.inl ⟨rfl, rfl⟩)))⟩
    · exact .inl rfl
  · rcases whenIdle_cases h with ⟨hp, rfl⟩ | ⟨-, rfl⟩
    · exact .inr ⟨hp, .inr (.inr (.inr (.inr ⟨rfl, rfl⟩)))⟩
    · exact .inl rfl
  all_goals (cases h; exact .inl rfl)

end Sys2Proof.Machine
end

