-- ==== Sys2Proof/Laws/TimedView.lean ====
section
/-! SUPPORT. The small lemmas of the timed view's line: what it carries, which primitives leave it alone, and the level at
every instant of a run that does. -/

namespace Sys2Proof.Machine

@[simp] theorem lineLevel_output (l : Level) (b : Bool) : lineLevel .output l b = l := rfl

@[simp] theorem lineLevel_pulledLow (l : Level) : lineLevel .input l true = .low := rfl

@[simp] theorem lineLevel_released (l : Level) : lineLevel .input l false = .high := rfl

@[simp] theorem dirAfter_setDir (d e : Dir) : (Prim.setDir e).dirAfter d = e := rfl

@[simp] theorem dirAfter_write (d : Dir) (l : Level) : (Prim.write l).dirAfter d = d := rfl

@[simp] theorem drvAfter_setDir (l : Level) (e : Dir) : (Prim.setDir e).drvAfter l = l := rfl

@[simp] theorem drvAfter_write (l m : Level) : (Prim.write m).drvAfter l = m := rfl

/-- A primitive that neither turns the pin nor writes the line. -/
def Prim.quiet (p : Prim) : Prop :=
  (∀ d, p ≠ .setDir d) ∧ ∀ l, p ≠ .write l

/-- A quiet primitive leaves the line as it was, from its start. -/
theorem quiet_leaves {p : TimedPrim} (h : p.prim.quiet) (d : Dir) (l : Level) :
    p.prim.dirAfter d = d ∧ p.prim.drvAfter l = l ∧ p.holdsFrom = p.start := by
  unfold TimedPrim.holdsFrom
  cases hp : p.prim with
  | setDir e => exact absurd hp (h.1 e)
  | write m => exact absurd hp (h.2 m)
  | read _ => exact ⟨rfl, rfl, rfl⟩
  | delayUs _ => exact ⟨rfl, rfl, rfl⟩
  | delayMs _ => exact ⟨rfl, rfl, rfl⟩

/-- A timed run of one more primitive. -/
theorem timedRun_cons {level : ℝ → Level} {p : TimedPrim} {ps : List TimedPrim} (h : timedRun level (p :: ps)) :
    p.respects level ∧ (∀ q ∈ ps.head?, p.finish ≤ q.start) ∧ timedRun level ps := by
  cases ps with
  | nil => exact ⟨h, by simp, trivial⟩
  | cons q rest => exact ⟨h.1, by simpa using h.2.1, h.2.2⟩

/-- Over quiet primitives the line carries what `d`, `l` and the sensor give it, from the first start to the last end. -/
theorem level_of_quiet {level : ℝ → Level} {pulledLow : ℝ → Bool} {d : Dir} {l : Level} {ps : List TimedPrim}
    (hrun : timedRun level ps) (hline : lineFollows level pulledLow d l ps) (hquiet : ∀ p ∈ ps, p.prim.quiet) :
    ∀ p ∈ ps, ∀ t, p.start ≤ t → t ≤ p.finish → level t = lineLevel d l (pulledLow t) := by
  induction ps with
  | nil => simp
  | cons p ps ih =>
    obtain ⟨hd, hl, hs⟩ := quiet_leaves (hquiet p (by simp)) d l
    obtain ⟨-, hnext, hrest⟩ := timedRun_cons hrun
    cases ps with
    | nil =>
      intro q hq t h0 h1
      obtain rfl : q = p := by simpa using hq
      simpa [hd, hl] using hline t (by rw [hs]; exact h0) h1
    | cons q rest =>
      obtain ⟨hp, hline⟩ := hline
      rw [hd, hl] at hline
      have ih := ih hrest hline fun x hx => hquiet x (by simp [hx])
      intro x hx t h0 h1
      rcases List.mem_cons.mp hx with rfl | hx
      · rcases lt_or_ge t q.start with ht | ht
        · simpa [hd, hl] using hp t (by rw [hs]; exact h0) ht
        · have hq : q.start ≤ q.finish := (timedRun_cons hrest).1.1
          have hstart : x.finish ≤ q.start := hnext q (by simp)
          exact ih q (by simp) t ht (h1.trans (hstart.trans hq))
      · exact ih x hx t h0 h1

/-- A read among quiet primitives returns what the line carries at its instant. -/
theorem read_of_quiet {level : ℝ → Level} {pulledLow : ℝ → Bool} {d : Dir} {l m : Level} {ps : List TimedPrim}
    {p : TimedPrim} (hrun : timedRun level ps) (hline : lineFollows level pulledLow d l ps)
    (hquiet : ∀ p ∈ ps, p.prim.quiet) (hp : p ∈ ps) (hread : p.prim = .read m) :
    m = lineLevel d l (pulledLow p.instant) := by
  have hr : p.respects level := by
    clear hline hquiet hread
    induction ps with
    | nil => simp at hp
    | cons q ps ih =>
      rcases List.mem_cons.mp hp with rfl | hp
      · exact (timedRun_cons hrun).1
      · exact ih (timedRun_cons hrun).2.2 hp
  obtain ⟨-, h⟩ := hr
  rw [hread] at h
  exact h.2.2.trans (level_of_quiet hrun hline hquiet p hp _ h.1 h.2.1)

end Sys2Proof.Machine
end

