-- ==== Sys2Proof/Machine/Listing.lean ====
section
/-! DEFINITION. The listing syntax of host programs and its pseudo-operations (spec/30_encoding.md R85). -/

namespace Sys2Proof.Machine

/-- One line of a listing. -/
inductive Line where
  /-- `WR <off>, <value>` -/
  | wr (off : Nat) (v : Word)
  /-- `RD <off>` -/
  | rd (off : Nat)
  | acquire
  | decode
  | readSensor
  | waitIdle
  | loadFrame (f : Frame)
deriving DecidableEq, Repr

/-- `MemWrite(REG_BASE + off, 4, value)`. -/
def wrTurn (base off : Nat) (v : Word) : Turn :=
  .access (.memWrite (base + off) 4 v)

/-- `MemRead(REG_BASE + off, 4)`. -/
def rdTurn (base off : Nat) : Turn :=
  .access (.memRead (base + off) 4)

/-- The expansions of R85. -/
def Line.turns (base : Nat) : Line → List Turn
  | .wr off v => [wrTurn base off v]
  | .rd off => [rdTurn base off]
  | .acquire => [wrTurn base 0x00 0x01#32]
  | .decode => [wrTurn base 0x00 0x02#32]
  | .readSensor => [wrTurn base 0x00 0x03#32]
  | .waitIdle => [.waitIdle]
  | .loadFrame f =>
    [wrTurn base 0x0C ((f.extractLsb' 32 8).zeroExtend 32), wrTurn base 0x08 (f.extractLsb' 0 32)]

/-- The host's turns of a listing, in its order. -/
def listingTurns (base : Nat) (lines : List Line) : List Turn :=
  lines.flatMap (Line.turns base)

end Sys2Proof.Machine
end

