-- ==== Sys2Proof/Tests/Slice0.lean ====
section
/-! SUPPORT. The model's own tests: ill-formed terms that are refused, words written out from the spec's tables and what
they decode to, small one-step tests whose expected values stand in spec/95_test_vectors.md, and, for each obligation with
hypotheses, a state and operands that meet them. -/

open Sys2Proof Sys2Proof.Machine

namespace Sys2Proof.Tests

/-! ### WellFormed: a reserved command's code lies in its row's range (R76) -/

theorem test_wellFormed_refuses_04 : (Instr.reservedCmd04 0x08#8).wellFormed = false := by decide

theorem test_wellFormed_refuses_08 : (Instr.reservedCmd08 0x07#8).wellFormed = false := by decide

theorem test_wellFormed_refuses_10 : (Instr.reservedCmd10 0x20#8).wellFormed = false := by decide

theorem test_wellFormed_refuses_20 : (Instr.reservedCmd20 0x1F#8).wellFormed = false := by decide

theorem test_wellFormed_refuses_40 : (Instr.reservedCmd40 0x80#8).wellFormed = false := by decide

theorem test_wellFormed_refuses_80 : (Instr.reservedCmd80 0x7F#8).wellFormed = false := by decide

/-! ### Decoding: words written out from R76, R80 and R28 -/

theorem test_decode_nop :
    Sys2Proof.decode (.command (0b000000000000000000000000#24 ++ 0b00000000#8)) =
      .ok .nop := by decide

theorem test_decode_acquire :
    Sys2Proof.decode (.command (0b101101001111000010100101#24 ++ 0b00000001#8)) =
      .ok .acquire := by decide

theorem test_decode_decode :
    Sys2Proof.decode (.command (0b101101001111000010100101#24 ++ 0b00000010#8)) =
      .ok .decode := by decide

theorem test_decode_readSensor :
    Sys2Proof.decode (.command (0b000000000000000000000000#24 ++ 0b00000011#8)) =
      .ok .readSensor := by decide

theorem test_decode_reservedCmd04 :
    Sys2Proof.decode (.command (0b000000000000000000000000#24 ++ 0b00000111#8)) =
      .ok (.reservedCmd04 0b00000111#8) := by decide

theorem test_decode_reservedCmd08 :
    Sys2Proof.decode (.command (0b000000000000000000000000#24 ++ 0b00001000#8)) =
      .ok (.reservedCmd08 0b00001000#8) := by decide

theorem test_decode_reservedCmd10 :
    Sys2Proof.decode (.command (0b000000000000000000000000#24 ++ 0b00011111#8)) =
      .ok (.reservedCmd10 0b00011111#8) := by decide

theorem test_decode_reservedCmd20 :
    Sys2Proof.decode (.command (0b000000000000000000000000#24 ++ 0b00100000#8)) =
      .ok (.reservedCmd20 0b00100000#8) := by decide

theorem test_decode_reservedCmd40 :
    Sys2Proof.decode (.command (0b101101001111000010100101#24 ++ 0b01111111#8)) =
      .ok (.reservedCmd40 0b01111111#8) := by decide

theorem test_decode_reservedCmd80 :
    Sys2Proof.decode (.command (0b000000000000000000000000#24 ++ 0b10000000#8)) =
      .ok (.reservedCmd80 0b10000000#8) := by decide

theorem test_decode_idle : Sys2Proof.decode (.state 0b0000#4) = .ok .idle := by decide

theorem test_decode_startHigh : Sys2Proof.decode (.state 0b0001#4) = .ok .startHigh := by decide

theorem test_decode_startLow : Sys2Proof.decode (.state 0b0010#4) = .ok .startLow := by decide

theorem test_decode_startRelease : Sys2Proof.decode (.state 0b0011#4) = .ok .startRelease := by decide

theorem test_decode_waitAckLow : Sys2Proof.decode (.state 0b0100#4) = .ok .waitAckLow := by decide

theorem test_decode_waitHsHigh : Sys2Proof.decode (.state 0b0101#4) = .ok .waitHsHigh := by decide

theorem test_decode_waitHsLow : Sys2Proof.decode (.state 0b0110#4) = .ok .waitHsLow := by decide

theorem test_decode_waitBitHigh : Sys2Proof.decode (.state 0b0111#4) = .ok .waitBitHigh := by decide

theorem test_decode_bitSample : Sys2Proof.decode (.state 0b1000#4) = .ok .bitSample := by decide

theorem test_decode_bitTail : Sys2Proof.decode (.state 0b1001#4) = .ok .bitTail := by decide

theorem test_decode_waitBitLow : Sys2Proof.decode (.state 0b1010#4) = .ok .waitBitLow := by decide

theorem test_decode_bitCommit : Sys2Proof.decode (.state 0b1011#4) = .ok .bitCommit := by decide

theorem test_decode_done : Sys2Proof.decode (.state 0b1100#4) = .ok .done := by decide

theorem test_decode_refuses_reserved_states :
    Sys2Proof.decode (.state 0b1101#4) = .error .reservedStateCode ∧
    Sys2Proof.decode (.state 0b1110#4) = .error .reservedStateCode ∧
    Sys2Proof.decode (.state 0b1111#4) = .error .reservedStateCode := by decide

theorem test_decode_rdCtrl : Sys2Proof.decode (.read 0x00 4) = .ok .rdCtrl := by decide

theorem test_decode_rdStatus : Sys2Proof.decode (.read 0x04 4) = .ok .rdStatus := by decide

theorem test_decode_rdFrameLo : Sys2Proof.decode (.read 0x08 4) = .ok .rdFrameLo := by decide

theorem test_decode_rdFrameHi : Sys2Proof.decode (.read 0x0C 4) = .ok .rdFrameHi := by decide

theorem test_decode_rdReading : Sys2Proof.decode (.read 0x10 4) = .ok .rdReading := by decide

theorem test_decode_rdReserved14 : Sys2Proof.decode (.read 0x14 4) = .ok .rdReserved14 := by decide

theorem test_decode_rdReserved18 : Sys2Proof.decode (.read 0x18 4) = .ok .rdReserved18 := by decide

theorem test_decode_rdReserved1C : Sys2Proof.decode (.read 0x1C 4) = .ok .rdReserved1C := by decide

theorem test_decode_wrCtrl : Sys2Proof.decode (.write 0x00 4 0x12345678#32) = .ok (.wrCtrl 0x12345678#32) := by decide

theorem test_decode_wrStatus : Sys2Proof.decode (.write 0x04 4 0x12345678#32) = .ok (.wrStatus 0x12345678#32) := by decide

theorem test_decode_wrFrameLo : Sys2Proof.decode (.write 0x08 4 0x12345678#32) = .ok (.wrFrameLo 0x12345678#32) := by decide

theorem test_decode_wrFrameHi : Sys2Proof.decode (.write 0x0C 4 0x12345678#32) = .ok (.wrFrameHi 0x12345678#32) := by decide

theorem test_decode_wrReading : Sys2Proof.decode (.write 0x10 4 0x12345678#32) = .ok (.wrReading 0x12345678#32) := by decide

theorem test_decode_wrReserved14 : Sys2Proof.decode (.write 0x14 4 0x12345678#32) = .ok (.wrReserved14 0x12345678#32) := by decide

theorem test_decode_wrReserved18 : Sys2Proof.decode (.write 0x18 4 0x12345678#32) = .ok (.wrReserved18 0x12345678#32) := by decide

theorem test_decode_wrReserved1C : Sys2Proof.decode (.write 0x1C 4 0x12345678#32) = .ok (.wrReserved1C 0x12345678#32) := by decide

/-- I27: an offset beyond the window, a half-word access and a misaligned offset (R54). -/
theorem test_decode_refuses_accesses :
    Sys2Proof.decode (.read 0x20 4) = .error .outsideWindow ∧
    Sys2Proof.decode (.write 0x08 2 0#32) = .error .badWidth ∧
    Sys2Proof.decode (.read 0x1D 4) = .error .misaligned := by decide

/-- The bits the opcode table gives one row of each format, as assumption log 8 lays them out. -/
theorem test_tableWords :
    decodeTableWord 8 0x03 = some .readSensor ∧
    decodeTableWord 4 0xA = some .waitBitLow ∧
    decodeTableWord 5 0x0C = some .rdFrameHi ∧
    decodeTableWord 16 0x010A = some .waitBitLow ∧
    decodeTableWord 16 0x020C = some .rdFrameHi ∧
    decodeTableWord 48 0x12345678030C = some (.wrFrameHi 0x12345678#32) := by decide

/-! ### States the tests use -/

/-- What a meaning leaves, seen through `f`; none where it stops. -/
def seen {α : Type} (o : Out) (f : State → α) : Option α :=
  (next? o).map f

/-- The bytes of the source's scenario S5, as a frame (V-D1). -/
def frameS5 : Frame := 0x01F400C8BD#40

/-- The reset state with a frame published. -/
def withFrame (f : Frame) : State :=
  { State.reset with frame := f }

/-- The reset state with turns to come. -/
def withTurns (ts : List Turn) : State :=
  { State.reset with turns := ts }

/-- A transaction in progress, in a state after START_RELEASE, with levels to come. -/
def inState (pc : BitVec 4) (script : List Level) : State :=
  { State.reset with pc := pc, script := script }

/-- A transaction in START_LOW or START_RELEASE, the pin an output. -/
def driving (pc : BitVec 4) (l : Level) : State :=
  { State.reset with pc := pc, dir := .output, drv := l }

/-- The frame buffer of V-D1, all five bytes received, in the mode given. -/
def receivedS5 (m : BitVec 1) (checksum : Byte) : State :=
  { State.reset with pc := 0xC#4, mode := m, bidx := 5#3, buf := ⟨0x01#8, 0xF4#8, 0x00#8, 0xC8#8, checksum⟩ }

/-- The parameters with short bounds, so that a wait's end is a few reads away. -/
def shortBounds : Config.Params :=
  { Config.defaults with hsPolls := 2, waitPolls := .reads 2 }

/-! ### Commands (V-H2 to V-H12) -/

/-- V-H2. -/
theorem test_nop : seen (exec .nop State.reset) State.statusWord = some 0x00000000#32 := by decide

/-- V-H12: NOP while BUSY. -/
theorem test_nop_busy :
    seen (exec .nop (acceptTransaction 0#1 State.reset)) State.statusWord = some 0x00000101#32 := by decide

/-- V-H3. -/
theorem test_acquire :
    seen (exec .acquire (withFrame frameS5)) (fun t => (t.statusWord, t.mode, t.frame)) =
      some (0x00000101#32, 0#1, 0x01F400C8BD#40) := by decide

/-- V-H4. -/
theorem test_readSensor :
    seen (exec .readSensor State.reset) (fun t => (t.statusWord, t.mode)) = some (0x00000101#32, 1#1) := by decide

/-- V-D2: a negative temperature. -/
theorem test_decode_negative :
    seen (exec .decode (withFrame 0x01F48032A7#40)) (fun t => (t.statusWord, t.reading)) =
      some (0x00000002#32, 0xFFCE01F4#32) := by decide

/-- V-H11: a mismatch leaves READING. -/
theorem test_decode_mismatch :
    seen (exec .decode { withFrame 0x01F48032A8#40 with reading := 0xFFCE01F4#32 }) (fun t => (t.statusWord, t.reading)) =
      some (0x00000008#32, 0xFFCE01F4#32) := by decide

theorem test_reservedCmd04 :
    seen (exec (.reservedCmd04 0b00000111#8) (withFrame frameS5)) (fun t => (t.statusWord, t.frame)) =
      some (0x00000000#32, 0x01F400C8BD#40) := by decide

theorem test_reservedCmd08 :
    seen (exec (.reservedCmd08 0b00001000#8) (withFrame frameS5)) (fun t => (t.statusWord, t.frame)) =
      some (0x00000000#32, 0x01F400C8BD#40) := by decide

theorem test_reservedCmd10 :
    seen (exec (.reservedCmd10 0b00011111#8) (withFrame frameS5)) (fun t => (t.statusWord, t.frame)) =
      some (0x00000000#32, 0x01F400C8BD#40) := by decide

theorem test_reservedCmd20 :
    seen (exec (.reservedCmd20 0b00100000#8) (withFrame frameS5)) (fun t => (t.statusWord, t.frame)) =
      some (0x00000000#32, 0x01F400C8BD#40) := by decide

theorem test_reservedCmd40 :
    seen (exec (.reservedCmd40 0b01111111#8) (withFrame frameS5)) (fun t => (t.statusWord, t.frame)) =
      some (0x00000000#32, 0x01F400C8BD#40) := by decide

theorem test_reservedCmd80 :
    seen (exec (.reservedCmd80 0b10000000#8) (withFrame frameS5)) (fun t => (t.statusWord, t.frame)) =
      some (0x00000000#32, 0x01F400C8BD#40) := by decide

/-! ### Engine steps (V-E0 to V-E12) -/

/-- While IDLE no primitive is issued (R131). -/
theorem test_idle :
    seen (exec .idle State.reset) (fun t => (t.statusWord, t.trace)) = some (0x00000000#32, []) := by decide

/-- V-E0, step 1. -/
theorem test_startHigh :
    seen (exec .startHigh (acceptTransaction 1#1 State.reset)) (fun t => (t.statusWord, t.trace, t.driven)) =
      some (0x201#32, [.delayMs 100, .write .high, .setDir .output], some .high) := by decide

/-- V-E0, step 2. -/
theorem test_startLow :
    seen (exec .startLow (driving 0x2#4 .high)) (fun t => (t.statusWord, t.trace, t.driven)) =
      some (0x301#32, [.delayMs 2, .write .low], some .low) := by decide

/-- V-E0, step 3. -/
theorem test_startRelease :
    seen (exec .startRelease (driving 0x3#4 .low)) (fun t => (t.statusWord, t.trace, t.dir, t.drv)) =
      some (0x401#32, [.setDir .input, .delayUs 0, .write .high], .input, .high) := by decide

/-- V-E1. -/
theorem test_waitAckLow :
    seen (exec .waitAckLow (inState 0x4#4 [.low])) (fun t => (t.statusWord, t.poll, t.trace)) =
      some (0x501#32, 0, [.read .low]) := by decide

/-- V-E4: the 200th read of High. -/
theorem test_waitAckLow_fails :
    seen (exec .waitAckLow { inState 0x4#4 [.high] with poll := 199 }) (fun t => (t.statusWord, t.trace)) =
      some (0x4#32, [.read .high]) := by decide

/-- V-E5: the 200th read of Low. -/
theorem test_waitHsHigh_fails :
    seen (exec .waitHsHigh { inState 0x5#4 [.low] with poll := 199 }) State.statusWord = some 0x6#32 := by decide

/-- V-E9: the same read where the bound is UNBOUNDED. -/
theorem test_waitHsHigh_unbounded :
    seen (exec .waitHsHigh
        { inState 0x5#4 [.low] with poll := 199, cfg := { Config.defaults with waitPolls := .unbounded } })
      (fun t => (t.statusWord, t.trace)) = some (0x501#32, [.delayUs 1, .read .low]) := by decide

/-- V-E18, step 6. -/
theorem test_waitHsLow :
    seen (exec .waitHsLow (inState 0x6#4 [.low])) State.statusWord = some 0x701#32 := by decide

/-- V-E6: the 200th read of High. -/
theorem test_waitHsLow_fails :
    seen (exec .waitHsLow { inState 0x6#4 [.high] with poll := 199 }) State.statusWord = some 0x6#32 := by decide

/-- V-E18, step 7. -/
theorem test_waitBitHigh :
    seen (exec .waitBitHigh (inState 0x7#4 [.high])) State.statusWord = some 0x801#32 := by decide

/-- The read before the last (R135): the wait goes on, after a delay. -/
theorem test_waitBitHigh_waits :
    seen (exec .waitBitHigh { inState 0x7#4 [.low] with poll := 198 }) (fun t => (t.statusWord, t.poll, t.trace)) =
      some (0x701#32, 199, [.delayUs 1, .read .low]) := by decide

/-- V-E10. -/
theorem test_bitSample_high :
    seen (exec .bitSample (inState 0x8#4 [.high])) (fun t => (t.sbit, t.statusWord, t.trace)) =
      some (1#1, 0x901#32, [.read .high, .delayUs 30]) := by decide

/-- V-E10. -/
theorem test_bitSample_low :
    seen (exec .bitSample (inState 0x8#4 [.low])) (fun t => (t.sbit, t.statusWord)) = some (0#1, 0xB01#32) := by decide

/-- V-E10. -/
theorem test_bitTail :
    seen (exec .bitTail (inState 0x9#4 [])) (fun t => (t.statusWord, t.trace)) = some (0xA01#32, [.delayUs 45]) := by
  decide

/-- V-E18, step 155. -/
theorem test_waitBitLow :
    seen (exec .waitBitLow (inState 0xA#4 [.low])) State.statusWord = some 0xB01#32 := by decide

/-- V-E11, the seventh commit. -/
theorem test_bitCommit_shifts :
    seen (exec .bitCommit { inState 0xB#4 [] with acc := 0x2F#8, nbit := 6#4, bidx := 4#3, sbit := 0#1 })
      (fun t => (t.acc, t.nbit, t.statusWord)) = some (0x5E#8, 7#4, 0x701#32) := by decide

/-- V-E11, the eighth commit. -/
theorem test_bitCommit_stores :
    seen (exec .bitCommit { inState 0xB#4 [] with acc := 0x5E#8, nbit := 7#4, bidx := 4#3, sbit := 1#1 })
      (fun t => (t.buf.b4, t.bidx, t.acc, t.nbit, t.statusWord)) = some (0xBD#8, 5#3, 0x00#8, 0#4, 0xC01#32) := by decide

/-- P1's last step. -/
theorem test_done_readSensor :
    seen (exec .done (receivedS5 1#1 0xBD#8)) (fun t => (t.statusWord, t.frame, t.reading)) =
      some (0x2#32, 0x01F400C8BD#40, 0x00C801F4#32) := by decide

/-- V-E16: FRAME is published although the checksum fails. -/
theorem test_done_mismatch :
    seen (exec .done (receivedS5 1#1 0xBE#8)) (fun t => (t.statusWord, t.frame, t.reading)) =
      some (0x8#32, 0x01F400C8BE#40, 0x00000000#32) := by decide

/-! ### Host accesses (V-H1, V-H8 to V-H10, P1) -/

/-- A CTRL read is 0 while BUSY too (R29). -/
theorem test_rdCtrl : seen (exec .rdCtrl (inState 0x8#4 [])) State.rdata = some 0x00000000#32 := by decide

/-- V-E18, step 153. -/
theorem test_rdStatus : seen (exec .rdStatus (inState 0x9#4 [])) State.rdata = some 0x901#32 := by decide

/-- P1. -/
theorem test_rdFrameLo : seen (exec .rdFrameLo (withFrame frameS5)) State.rdata = some 0xF400C8BD#32 := by decide

/-- P1. -/
theorem test_rdFrameHi : seen (exec .rdFrameHi (withFrame frameS5)) State.rdata = some 0x00000001#32 := by decide

/-- P1. -/
theorem test_rdReading :
    seen (exec .rdReading { State.reset with reading := 0x00C801F4#32 }) State.rdata = some 0x00C801F4#32 := by decide

/-- V-H1. -/
theorem test_rdReserved :
    seen (exec .rdReserved14 (withFrame frameS5)) State.rdata = some 0x00000000#32 ∧
    seen (exec .rdReserved18 (withFrame frameS5)) State.rdata = some 0x00000000#32 ∧
    seen (exec .rdReserved1C (withFrame frameS5)) State.rdata = some 0x00000000#32 := by decide

/-- V-H5: bits 31:8 of CTRL are ignored. -/
theorem test_wrCtrl :
    seen (exec (.wrCtrl 0x00000101#32) State.reset) State.statusWord = some 0x00000101#32 := by decide

/-- V-H9: a command while BUSY is ignored. -/
theorem test_wrCtrl_busy :
    seen (exec (.wrCtrl 0x00000002#32) (acceptTransaction 0#1 (withFrame frameS5))) (fun t => (t.statusWord, t.reading)) =
      some (0x00000101#32, 0x00000000#32) := by decide

/-- V-H8. -/
theorem test_wrFrameHi :
    seen (exec (.wrFrameHi 0xFFFFFF02#32) State.reset) (fun t => (t.frameHiWord, t.frameLoWord)) =
      some (0x00000002#32, 0x00000000#32) := by decide

/-- V-H8. -/
theorem test_wrFrameLo :
    seen (exec (.wrFrameLo 0x8C00EB79#32) (withFrame 0x0200000000#40)) State.frame = some 0x028C00EB79#40 := by decide

/-- V-H9: a FRAME write while BUSY is ignored. -/
theorem test_wrFrame_busy :
    seen (exec (.wrFrameLo 0x12345678#32) (acceptTransaction 0#1 State.reset)) State.frame = some 0x0000000000#40 ∧
    seen (exec (.wrFrameHi 0x00000055#32) (acceptTransaction 0#1 State.reset)) State.frame = some 0x0000000000#40 := by
  decide

/-- V-H10. -/
theorem test_wrReadOnly :
    seen (exec (.wrStatus 0xFFFFFFFF#32) State.reset) State.statusWord = some 0#32 ∧
    seen (exec (.wrReading 0x12345678#32) State.reset) State.reading = some 0#32 ∧
    seen (exec (.wrReserved14 0x00000001#32) (withFrame frameS5)) State.frame = some 0x01F400C8BD#40 ∧
    seen (exec (.wrReserved18 0x00000001#32) (withFrame frameS5)) State.frame = some 0x01F400C8BD#40 ∧
    seen (exec (.wrReserved1C 0x00000001#32) (withFrame frameS5)) State.frame = some 0x01F400C8BD#40 := by decide

/-! ### The decoder and the level scripts -/

/-- V-D6, V-D7 and V-D9. -/
theorem test_decodeFrame :
    decodeFrame 0x0000FFFFFE#40 = .ok { temperatureTenths := -32767, humidityTenths := 0 } ∧
    decodeFrame 0x0000800080#40 = .ok { temperatureTenths := 0, humidityTenths := 0 } ∧
    decodeFrame 0xFFFF7FFF7C#40 = .ok { temperatureTenths := 32767, humidityTenths := 65535 } := by decide

/-- V-D15. -/
theorem test_encodeReading :
    encodeReading { temperatureTenths := -50, humidityTenths := 500 } = 0x01F48032A7#40 ∧
    encodeReading { temperatureTenths := 235, humidityTenths := 652 } = 0x028C00EB79#40 := by decide

/-- The first 13 levels of P1's script, and its length. -/
theorem test_shortestScript :
    (shortestScript frameS5).take 13 =
      [.low, .high, .low, .high, .low, .high, .low, .high, .low, .high, .low, .high, .low] ∧
    (shortestScript frameS5).length = 98 := by decide

/-- LOADFRAME of P3. -/
theorem test_loadFrame :
    listingTurns 0x100 [.loadFrame 0x01F48032A7#40] =
      [.access (.memWrite 0x10C 4 0x00000001#32), .access (.memWrite 0x108 4 0xF48032A7#32)] := by decide

/-- V-X2: reset during a transaction. -/
theorem test_reset :
    seen (step { driving 0x3#4 .low with turns := [.reset], frame := frameS5, reading := 1#32 })
      (fun t => (t.statusWord, t.dir, t.drv, t.frame, t.reading)) = some (0#32, .input, .high, 0#40, 0#32) := by decide

/-- WAITIDLE reads STATUS again while BUSY, and goes on once it reads 0 in bit 0 (R85). -/
theorem test_waitIdle :
    seen (step { inState 0x8#4 [.low] with turns := [.waitIdle] }) (fun t => (t.rdata, t.turns)) =
      some (0x801#32, [.engine, .waitIdle]) ∧
    seen (step (withTurns [.waitIdle])) (fun t => (t.rdata, t.turns)) = some (0x000#32, []) := by decide

/-- A table word is placed where the next step runs it. -/
theorem test_withFetchWord :
    seen (step (State.reset.withFetchWord 8 0x01)) State.statusWord = some 0x101#32 ∧
    seen (step (State.reset.withFetchWord 4 0x1)) State.statusWord = some 0x201#32 ∧
    seen (step (State.reset.withFetchWord 16 0x0204)) State.rdata = some 0x0#32 := by decide

/-! ### Witnesses: states and operands that meet the hypotheses of each obligation -/

/-- States of the invariant, at each state code. -/
theorem witness_SafeState :
    SafeState State.reset ∧ SafeState (acceptTransaction 0#1 State.reset) ∧ SafeState (driving 0x2#4 .high) ∧
    SafeState (driving 0x3#4 .low) ∧ SafeState (inState 0x4#4 []) ∧ SafeState (inState 0x5#4 []) ∧
    SafeState (inState 0x6#4 []) ∧ SafeState (inState 0x7#4 []) ∧ SafeState (inState 0x8#4 []) ∧
    SafeState { inState 0x9#4 [] with sbit := 1#1 } ∧ SafeState { inState 0xA#4 [] with sbit := 1#1, poll := 199 } ∧
    SafeState { inState 0xB#4 [] with acc := 0x7F#8, nbit := 7#4, bidx := 4#3 } ∧ SafeState (receivedS5 1#1 0xBD#8) := by
  refine ⟨?_, ?_, ?_, ?_, ?_, ?_, ?_, ?_, ?_, ?_, ?_, ?_, ?_⟩ <;>
    exact ⟨by decide, by decide, by decide, by decide, by decide, by decide⟩

theorem witness_ResetGivesTheListedValues : (0#3 : BitVec 3) ≤ 4#3 ∧ (4#3 : BitVec 3) ≤ 4#3 := by decide

theorem witness_ResetTurnSetsEveryRegister :
    CodesOk { inState 0xA#4 [.high] with turns := [.reset, .engine] } ∧
    { inState 0xA#4 [.high] with turns := [.reset, .engine] }.turns = .reset :: [.engine] := by decide

/-- An engine step, a command and a reset. -/
theorem witness_InvariantKeptByEveryStep :
    (∃ t, SafeState (inState 0x4#4 [.low]) ∧ step (inState 0x4#4 [.low]) = .next t) ∧
    (∃ t, SafeState (withTurns [.access (.memWrite 0 4 0x03#32)]) ∧
      step (withTurns [.access (.memWrite 0 4 0x03#32)]) = .next t) ∧
    (∃ t, SafeState { receivedS5 0#1 0#8 with turns := [.reset] } ∧
      step { receivedS5 0#1 0#8 with turns := [.reset] } = .next t) :=
  ⟨⟨_, ⟨by decide, by decide, by decide, by decide, by decide, by decide⟩, rfl⟩,
   ⟨_, ⟨by decide, by decide, by decide, by decide, by decide, by decide⟩, rfl⟩,
   ⟨_, ⟨by decide, by decide, by decide, by decide, by decide, by decide⟩, rfl⟩⟩

/-- The three states that write, a wait, and BIT_SAMPLE. -/
theorem witness_LineDriverNeverMisused :
    (∃ t, step (acceptTransaction 0#1 State.reset) = .next t ∧ (acceptTransaction 0#1 State.reset).pc = 0x1#4 ∧
      engineTurn (acceptTransaction 0#1 State.reset) ∧
      t.trace = [.delayMs 100, .write .high, .setDir .output] ++ (acceptTransaction 0#1 State.reset).trace) ∧
    (∃ t, step (driving 0x2#4 .high) = .next t ∧ t.trace = [.delayMs 2, .write .low] ++ (driving 0x2#4 .high).trace) ∧
    (∃ t, step (driving 0x3#4 .low) = .next t ∧ (driving 0x3#4 .low).pc = 0x3#4 ∧ engineTurn (driving 0x3#4 .low) ∧
      t.trace = [.setDir .input, .delayUs 0, .write .high] ++ (driving 0x3#4 .low).trace) ∧
    (∃ t, step (inState 0x4#4 [.low]) = .next t ∧ t.trace = [.read .low] ++ (inState 0x4#4 [.low]).trace) ∧
    (∃ t, step (inState 0x8#4 [.low]) = .next t ∧ t.trace = [.read .low, .delayUs 30] ++ (inState 0x8#4 [.low]).trace) :=
  ⟨⟨_, rfl, by decide, by decide, by decide⟩, ⟨_, rfl, by decide⟩, ⟨_, rfl, by decide, by decide, by decide⟩,
   ⟨_, rfl, by decide⟩, ⟨_, rfl, by decide⟩⟩

/-- With no access next, and with the last defined one. -/
theorem witness_InvariantGivesANextStep :
    (withTurns []).turns.head? = none ∧
    (withTurns [.access (.memRead 0x1C 4)]).turns.head? = some (.access (.memRead 0x1C 4)) ∧
    decodeAccess (withTurns [.access (.memRead 0x1C 4)]).cfg.regBase (.memRead 0x1C 4) = .ok .rdReserved1C := by decide

/-- Each reserved row at both ends of its range is well formed. -/
theorem witness_DecodeOfEncodeIsTheInstruction :
    (Instr.reservedCmd04 0x04#8).wellFormed = true ∧ (Instr.reservedCmd04 0x07#8).wellFormed = true ∧
    (Instr.reservedCmd08 0x08#8).wellFormed = true ∧ (Instr.reservedCmd08 0x0F#8).wellFormed = true ∧
    (Instr.reservedCmd10 0x10#8).wellFormed = true ∧ (Instr.reservedCmd10 0x1F#8).wellFormed = true ∧
    (Instr.reservedCmd20 0x20#8).wellFormed = true ∧ (Instr.reservedCmd20 0x3F#8).wellFormed = true ∧
    (Instr.reservedCmd40 0x40#8).wellFormed = true ∧ (Instr.reservedCmd40 0x7F#8).wellFormed = true ∧
    (Instr.reservedCmd80 0x80#8).wellFormed = true ∧ (Instr.reservedCmd80 0xFF#8).wellFormed = true ∧
    (Instr.wrFrameLo 0xFFFFFFFF#32).wellFormed = true := by decide

theorem witness_EncodeOfDecodeIsTheCode :
    Sys2Proof.decode (.command 0xFFFFFF7F#32) = .ok (.reservedCmd40 0x7F#8) ∧
    Sys2Proof.decode (.write 0x0C 4 0xFFFFFF02#32) = .ok (.wrFrameHi 0xFFFFFF02#32) := by decide

theorem witness_CommandSelectedByTheLowByte :
    (0xFFFFFF01#32).extractLsb' 0 8 = (0x00000001#32).extractLsb' 0 8 := by decide

/-- The codes next to the legal ones. -/
theorem witness_ReservedCodesAreRefused :
    configLegal { State.reset with pc := 0xD#4 }.cfg = true ∧ 0xC#4 < { State.reset with pc := 0xD#4 }.pc ∧
    configLegal { State.reset with pc := 0xC#4, result := 5#3 }.cfg = true ∧
    { State.reset with pc := 0xC#4, result := 5#3 }.pc ≤ 0xC#4 ∧
    4#3 < { State.reset with pc := 0xC#4, result := 5#3 }.result := by decide

/-- One step within the range, and one step beyond it. -/
theorem witness_IllegalConfigurationIsRefused :
    configLegal { Config.defaults with tStartLowMs := 10 } = true ∧
    configLegal { Config.defaults with tStartLowMs := 11 } = false ∧
    configLegal { Config.defaults with waitPolls := .reads 1 } = true ∧
    configLegal { Config.defaults with waitPolls := .reads 0 } = false := by decide

/-- A defined access and one with each defect. -/
theorem witness_OnlyAlignedWordAccessesAreDefined :
    CodesOk (withTurns [.access (.memWrite 0x1C 4 0#32)]) ∧ definedOffset 0x1C ∧
    CodesOk (withTurns [.access (.memRead 0x20 4)]) ∧ ¬ definedOffset 0x20 ∧
    CodesOk (withTurns [.access (.memRead 0x1D 4)]) ∧ ¬ definedOffset 0x1D ∧
    CodesOk (withTurns [.access (.memRead 0x1C 2)]) := by decide

/-- Each clause: an empty list of turns, an engine turn, a read, a write, WAITIDLE idle and busy. -/
theorem witness_StepRunsTheDecodedInstruction :
    (CodesOk (inState 0x7#4 []) ∧ Sys2Proof.decode (.state (inState 0x7#4 []).pc) = .ok .waitBitHigh) ∧
    (withTurns [.engine]).turns = .engine :: [] ∧
    ((withTurns [.access (.memRead 0x04 4)]).turns =
        .access (.memRead ((withTurns [.access (.memRead 0x04 4)]).cfg.regBase + 0x04) 4) :: [] ∧
      Sys2Proof.decode (.read 0x04 4) = .ok .rdStatus) ∧
    ((withTurns [.access (.memWrite 0x00 4 3#32)]).turns =
        .access (.memWrite ((withTurns [.access (.memWrite 0x00 4 3#32)]).cfg.regBase + 0x00) 4 3#32) :: [] ∧
      Sys2Proof.decode (.write 0x00 4 3#32) = .ok (.wrCtrl 3#32)) ∧
    ((withTurns [.waitIdle]).turns = .waitIdle :: [] ∧ (withTurns [.waitIdle]).pc = 0x0#4) ∧
    CodesOk { inState 0x7#4 [] with turns := [.waitIdle] } := by decide

theorem witness_AcquireAndReadSensorStartATransaction : (withFrame frameS5).pc = 0x0#4 := by decide

theorem witness_BusyIgnoresEveryCommand :
    (inState 0xC#4 []).pc ≠ 0x0#4 ∧ Sys2Proof.decode (.command 0x00000001#32) = .ok .acquire := by decide

/-- The codes at the ends of the range of commands without effect. -/
theorem witness_NopAndReservedCommandsChangeNothing :
    (0xABCDEF00#32).extractLsb' 0 8 = 0x00#8 ∧ 0x04#8 ≤ (0x00000004#32).extractLsb' 0 8 ∧
    0x04#8 ≤ (0x000000FF#32).extractLsb' 0 8 := by decide

theorem witness_DecodeCommandRecordsTheOutcome :
    (inState 0x1#4 []).pc ≠ 0x0#4 ∧
    ((withFrame frameS5).pc = 0x0#4 ∧
      decodeFrame (withFrame frameS5).frame = .ok { temperatureTenths := 200, humidityTenths := 500 }) ∧
    ((withFrame 0x01F48032A8#40).pc = 0x0#4 ∧ decodeFrame (withFrame 0x01F48032A8#40).frame = .checksumMismatch) := by
  decide

/-- DECODE twice on one frame (V-D16). -/
theorem witness_DecodeCommandRecordsTheOutcome_again :
    ∃ t u, exec .decode (withFrame frameS5) = .next t ∧ exec .decode t = .next u :=
  ⟨_, _, rfl, rfl⟩

theorem witness_FrameWritesTakeEffectWhenIdle :
    (withFrame frameS5).pc = 0x0#4 ∧ (inState 0x1#4 []).pc ≠ 0x0#4 := by decide

theorem witness_FrameReadsBackWhatWasWritten :
    (∃ t u, exec (.wrFrameHi 0xFFFFFF02#32) State.reset = .next t ∧ exec (.wrFrameLo 0x8C00EB79#32) t = .next u) ∧
    (∃ t u, exec (.wrFrameLo 0x8C00EB79#32) State.reset = .next t ∧ exec (.wrFrameHi 0xFFFFFF02#32) t = .next u) :=
  ⟨⟨_, _, rfl, rfl⟩, ⟨_, _, rfl, rfl⟩⟩

/-- A read, and the write that starts a transaction. -/
theorem witness_HostAccessLeavesTheEngineAlone :
    (∃ t, step { inState 0x8#4 [] with turns := [.access (.memRead 0x04 4)] } = .next t ∧ t.pc = 0x8#4) ∧
    (∃ t, step (withTurns [.access (.memWrite 0x00 4 0xFF03#32)]) = .next t ∧ t.pc = 0x1#4) :=
  ⟨⟨_, rfl, by decide⟩, ⟨_, rfl, by decide⟩⟩

theorem witness_IdleWaitsForACommand :
    (CodesOk State.reset ∧ State.reset.pc = 0x0#4 ∧ engineTurn State.reset) ∧
    (∃ t, step (withTurns [.access (.memWrite 0x00 4 0x01#32)]) = .next t ∧ t.pc ≠ 0x0#4) :=
  ⟨by decide, ⟨_, rfl, by decide⟩⟩

theorem witness_StartSignalSteps : (driving 0x2#4 .high).dir = .output ∧ (driving 0x3#4 .low).dir = .output := by decide

theorem witness_MisuseFaults :
    (inState 0x2#4 []).dir = .input ∧ (driving 0x4#4 .high).dir = .output ∧
    (∃ w ∈ waitTable, w.code = 0xA#4) ∧
    { inState 0xB#4 [] with nbit := 7#4, bidx := 5#3 }.nbit = 7#4 ∧
    4#3 < { inState 0xB#4 [] with nbit := 7#4, bidx := 5#3 }.bidx := by decide

/-- Low at the last read, High at the last read, High at the read before it. -/
theorem witness_AcknowledgementWaitPolls :
    ({ inState 0x4#4 [.low] with poll := 199 }.dir = .input ∧ { inState 0x4#4 [.low] with poll := 199 }.nextLevel = .low) ∧
    ({ inState 0x4#4 [.high] with poll := 199 }.nextLevel = .high ∧
      { inState 0x4#4 [.high] with poll := 199 }.cfg.hsPolls ≤ { inState 0x4#4 [.high] with poll := 199 }.poll + 1) ∧
    ({ inState 0x4#4 [.high] with poll := 198 }.nextLevel = .high ∧
      { inState 0x4#4 [.high] with poll := 198 }.poll + 1 < { inState 0x4#4 [.high] with poll := 198 }.cfg.hsPolls) := by
  decide

/-- WAIT_HS_HIGH: its target; Low at the last read; Low at the read before it. -/
theorem witness_BoundedWaitsPoll :
    ∃ w ∈ waitTable, w.kind = .timeout ∧
      (inState 0x5#4 [.high]).dir = .input ∧ (inState 0x5#4 [.high]).nextLevel = w.target ∧
      { inState 0x5#4 [.low] with poll := 199 }.nextLevel ≠ w.target ∧
      { inState 0x5#4 [.low] with poll := 199 }.cfg.waitPolls = .reads 200 ∧
      200 ≤ { inState 0x5#4 [.low] with poll := 199 }.poll + 1 ∧
      { inState 0x5#4 [.low] with poll := 198 }.nextLevel ≠ w.target ∧
      { inState 0x5#4 [.low] with poll := 198 }.poll + 1 < 200 :=
  ⟨⟨.waitHsHigh, 0x5#4, .high, .timeout, 0x6#4⟩, by decide⟩

/-- A step that enters a wait. -/
theorem witness_WaitEndsAtTheTargetOrTheBound_entry :
    ∃ t, step (driving 0x3#4 .low) = .next t ∧ t.pc ≠ (driving 0x3#4 .low).pc ∧ ∃ w ∈ waitTable, t.pc = w.code :=
  ⟨_, rfl, by decide, by decide⟩

/-- The last row, WAIT_BIT_LOW, with a bound of 2: the target at the second read, and none. -/
theorem witness_WaitEndsAtTheTargetOrTheBound :
    ∃ w ∈ waitTable,
      (CodesOk { inState 0xA#4 [.high, .low] with cfg := shortBounds } ∧ w.code = 0xA#4 ∧
        [Level.high, .low] = waitLevels 1 w.target ++ [] ∧ w.bound shortBounds = .reads 2 ∧ 1 < 2) ∧
      [Level.high, .high] = List.replicate (1 + 1) (otherLevel w.target) ++ [] ∧ w.bound shortBounds = .reads (1 + 1) :=
  ⟨⟨.waitBitLow, 0xA#4, .low, .timeout, 0xB#4⟩, by decide⟩

theorem witness_BitSampleLatchesOneRead :
    (inState 0x8#4 [.high]).dir = .input ∧ (inState 0x8#4 [.high]).nextLevel = .high ∧
    (inState 0x8#4 [.low]).nextLevel = .low := by decide

/-- A bit within a byte, a bit with no byte to come, the last bit of byte 3, the last bit of byte 4. -/
theorem witness_BitCommitShiftsAndStores :
    { inState 0xB#4 [] with nbit := 6#4, bidx := 4#3 }.nbit ≤ 7#4 ∧ { inState 0xB#4 [] with nbit := 6#4, bidx := 4#3 }.nbit ≠ 7#4 ∧
    { inState 0xB#4 [] with nbit := 6#4, bidx := 4#3 }.bidx ≠ 5#3 ∧ { inState 0xB#4 [] with nbit := 6#4, bidx := 5#3 }.bidx = 5#3 ∧
    { inState 0xB#4 [] with nbit := 7#4, bidx := 3#3 }.bidx ≤ 4#3 ∧ { inState 0xB#4 [] with nbit := 7#4, bidx := 3#3 }.bidx ≠ 4#3 ∧
    { inState 0xB#4 [] with nbit := 7#4, bidx := 4#3 }.bidx ≤ 4#3 := by decide

theorem witness_DonePublishesTheFrame :
    frameS5 = (receivedS5 0#1 0xBD#8).buf.b0 ++ (receivedS5 0#1 0xBD#8).buf.b1 ++ (receivedS5 0#1 0xBD#8).buf.b2 ++
      (receivedS5 0#1 0xBD#8).buf.b3 ++ (receivedS5 0#1 0xBD#8).buf.b4 ∧
    (receivedS5 0#1 0xBD#8).mode = 0#1 ∧ (receivedS5 1#1 0xBD#8).mode = 1#1 ∧
    decodeFrame frameS5 = .ok { temperatureTenths := 200, humidityTenths := 500 } ∧
    decodeFrame 0x01F400C8BE#40 = .checksumMismatch := by decide

/-- NO_RESPONSE and TIMEOUT. -/
theorem witness_FailureLeavesPublishedRegisters :
    (∃ t, SafeState { inState 0x4#4 [.high] with poll := 199 } ∧ step { inState 0x4#4 [.high] with poll := 199 } = .next t ∧
      t.pc = 0x0#4 ∧ t.result = 2#3) ∧
    (∃ t, SafeState { inState 0x5#4 [.low] with poll := 199 } ∧ step { inState 0x5#4 [.low] with poll := 199 } = .next t ∧
      t.pc = 0x0#4 ∧ t.result = 3#3) :=
  ⟨⟨_, ⟨by decide, by decide, by decide, by decide, by decide, by decide⟩, rfl, by decide, by decide⟩,
   ⟨_, ⟨by decide, by decide, by decide, by decide, by decide, by decide⟩, rfl, by decide, by decide⟩⟩

/-- Acceptance, a failure of each kind, both successors of BIT_SAMPLE, and DONE after BIT_COMMIT. -/
theorem witness_OnlyListedSuccessors_clauses :
    (∃ t, step (withTurns [.access (.memWrite 0 4 3#32)]) = .next t ∧ t.pc ≠ 0x0#4) ∧
    (∃ t, step { inState 0x4#4 [.high] with poll := 199 } = .next t ∧ t.pc = 0x0#4) ∧
    (∃ t, step { inState 0x7#4 [.low] with poll := 199 } = .next t ∧ t.pc = 0x0#4) ∧
    (∃ t, step (inState 0x8#4 [.high]) = .next t ∧ t.pc = 0x9#4) ∧
    (∃ t, step (inState 0x8#4 [.low]) = .next t ∧ t.pc = 0xB#4) ∧
    (∃ t, step { inState 0xB#4 [] with nbit := 7#4, bidx := 4#3 } = .next t ∧ t.pc = 0xC#4) :=
  ⟨⟨_, rfl, by decide⟩, ⟨_, rfl, by decide⟩, ⟨_, rfl, by decide⟩, ⟨_, rfl, by decide⟩, ⟨_, rfl, by decide⟩,
   ⟨_, rfl, by decide⟩⟩

/-- A listed successor, a reset, and a step that leaves `pc`. -/
theorem witness_OnlyListedSuccessors :
    (∃ t, step (inState 0x5#4 [.high]) = .next t ∧ t.pc ∈ successors 0x5#4) ∧
    (∃ t, step { inState 0x5#4 [] with turns := [.reset] } = .next t ∧ t.pc ∉ successors 0xB#4) ∧
    (∃ t, step { inState 0xB#4 [] with turns := [.access (.memRead 0 4)] } = .next t ∧ t.pc = 0xB#4) :=
  ⟨⟨_, rfl, by decide⟩, ⟨_, rfl, by decide⟩, ⟨_, rfl, by decide⟩⟩

/-- DONE, a host write, a reset. -/
theorem witness_FrameChangesOnlyWhenPublishedOrWritten :
    (∃ t, step (receivedS5 0#1 0xBD#8) = .next t ∧ t.frame ≠ (receivedS5 0#1 0xBD#8).frame) ∧
    (∃ t, step (withTurns [.access (.memWrite 0x08 4 1#32)]) = .next t ∧ t.frame ≠ 0#40) ∧
    (∃ t, step { withFrame frameS5 with turns := [.reset] } = .next t ∧ t.frame ≠ frameS5) :=
  ⟨⟨_, rfl, by decide⟩, ⟨_, rfl, by decide⟩, ⟨_, rfl, by decide⟩⟩

/-- DONE in READ_SENSOR mode, the DECODE command, a reset. -/
theorem witness_ReadingChangesOnlyByADecode :
    (∃ t, step (receivedS5 1#1 0xBD#8) = .next t ∧ t.reading ≠ 0#32) ∧
    (∃ t, step { withFrame frameS5 with turns := [.access (.memWrite 0x00 4 2#32)] } = .next t ∧ t.reading ≠ 0#32) ∧
    (∃ t, step { withTurns [.reset] with reading := 1#32 } = .next t ∧ t.reading ≠ 1#32) :=
  ⟨⟨_, rfl, by decide⟩, ⟨_, rfl, by decide⟩, ⟨_, rfl, by decide⟩⟩

/-- Acceptance, the end of a transaction, DECODE, a reset. -/
theorem witness_ResultWrittenOnlyAtAcceptanceAndEnd :
    (∃ t, step { withTurns [.access (.memWrite 0x00 4 1#32)] with result := 1#3 } = .next t ∧ t.result ≠ 1#3) ∧
    (∃ t, step (receivedS5 1#1 0xBE#8) = .next t ∧ t.result ≠ 0#3) ∧
    (∃ t, step (withTurns [.access (.memWrite 0x00 4 2#32)]) = .next t ∧ t.result ≠ 0#3) ∧
    (∃ t, step { withTurns [.reset] with result := 4#3 } = .next t ∧ t.result ≠ 4#3) :=
  ⟨⟨_, rfl, by decide⟩, ⟨_, rfl, by decide⟩, ⟨_, rfl, by decide⟩, ⟨_, rfl, by decide⟩⟩

/-- A step that changes each of the five. -/
theorem witness_InternalRegistersHaveTheirOwnWriters :
    (∃ t, step (withTurns [.access (.memWrite 0x00 4 3#32)]) = .next t ∧ t.mode ≠ 0#1) ∧
    (∃ t, step { inState 0xB#4 [] with nbit := 7#4, sbit := 1#1 } = .next t ∧ t.buf ≠ FrameBuffer.zero) ∧
    (∃ t, step (inState 0x8#4 [.high]) = .next t ∧ t.sbit ≠ 0#1) ∧
    (∃ t, step (driving 0x3#4 .low) = .next t ∧ t.dir ≠ .output) ∧
    (∃ t, step (driving 0x2#4 .high) = .next t ∧ t.drv ≠ .high) :=
  ⟨⟨_, rfl, by decide⟩, ⟨_, rfl, by decide⟩, ⟨_, rfl, by decide⟩, ⟨_, rfl, by decide⟩, ⟨_, rfl, by decide⟩⟩

theorem witness_IdleFrameReadsAreConsistent :
    CodesOk (withTurns [.access (.memRead 0x08 4), .engine, .access (.memRead 0x0C 4)]) ∧
    (withTurns [.access (.memRead 0x08 4), .engine, .access (.memRead 0x0C 4)]).pc = 0x0#4 ∧
    (withTurns [.access (.memRead 0x08 4), .engine, .access (.memRead 0x0C 4)]).turns =
      .access (.memRead ((withTurns []).cfg.regBase + 0x08) 4) ::
        (List.replicate 1 .engine ++ .access (.memRead ((withTurns []).cfg.regBase + 0x0C) 4) :: []) := by decide

theorem witness_ParametersNeverChange : ∃ t, step (inState 0x9#4 []) = .next t := ⟨_, rfl⟩

/-- A transaction that ends in DONE; one that fails is in witness_FailureLeavesPublishedRegisters. -/
theorem witness_TransactionsEndWithTheLineReleased :
    ∃ t, SafeState (receivedS5 0#1 0xBD#8) ∧ step (receivedS5 0#1 0xBD#8) = .next t ∧ (receivedS5 0#1 0xBD#8).pc ≠ 0x0#4 ∧
      t.pc = 0x0#4 :=
  ⟨_, ⟨by decide, by decide, by decide, by decide, by decide, by decide⟩, rfl, by decide, by decide⟩

theorem witness_EveryTransactionEnds :
    configLegal State.reset.cfg = true ∧ State.reset.cfg.waitPolls = .reads 200 ∧ State.reset.pc = 0x0#4 ∧
    State.reset.turns = [] := by decide

/-- Frame S5, with waits up to their bounds of 2, and with the longest acknowledgement wait of the defaults. -/
theorem witness_FrameReceivedIsTheScriptsFrame :
    (configLegal shortBounds = true ∧ (List.replicate 40 (BitWaits.mk 1 1)).length = 40 ∧ 1 < shortBounds.hsPolls ∧
      exhausted shortBounds.waitPolls 1 = false ∧
      (∀ w ∈ List.replicate 40 (BitWaits.mk 1 1),
        exhausted shortBounds.waitPolls w.rise = false ∧ exhausted shortBounds.waitPolls w.fall = false) ∧
      decodeFrame frameS5 = .ok { temperatureTenths := 200, humidityTenths := 500 } ∧
      decodeFrame 0xFFFFFFFFFF#40 = .checksumMismatch) ∧
    199 < Config.defaults.hsPolls := by decide

/-- A transaction that fails after four steps. -/
theorem witness_ReadSensorIsAcquireThenDecode :
    ∃ a, reaches 4 (acceptTransaction 0#1 { inState 0x0#4 [.high] with cfg := { Config.defaults with hsPolls := 1 } }) a ∧
      a.pc = 0x0#4 ∧ a.result = 2#3 :=
  ⟨_, rfl, by decide, by decide⟩

/-- The clause of a transaction that succeeds: the shortest one, of 127 steps (V-E13). -/
theorem witness_ReadSensorIsAcquireThenDecode_success :
    ∃ a, reaches 127 (acceptTransaction 0#1 (inState 0x0#4 (shortestScript 0#40))) a ∧ a.pc = 0x0#4 ∧ a.result = 1#3 :=
  ⟨_, rfl, by decide, by decide⟩

/-- Two blocks that hold different registers, on one script. -/
theorem witness_OutcomeDependsOnParametersAndLevels :
    { inState 0x0#4 (shortestScript 0#40) with frame := frameS5, poll := 7, acc := 0xFF#8 }.cfg = State.reset.cfg ∧
    { inState 0x0#4 (shortestScript 0#40) with frame := frameS5, poll := 7, acc := 0xFF#8 }.script = shortestScript 0#40 ∧
    (∃ t, exec .acquire State.reset = .next t) ∧
    ∃ t, reaches 127 (acceptTransaction 1#1 (inState 0x0#4 (shortestScript 0#40))) t ∧ t.pc = 0x0#4 ∧ t.result = 1#3 :=
  ⟨rfl, rfl, ⟨_, rfl⟩, ⟨_, rfl, by decide, by decide⟩⟩

/-- A failing transaction of OutcomeDependsOnParametersAndLevels. -/
theorem witness_OutcomeDependsOnParametersAndLevels_failure :
    ∃ t, reaches 4 (acceptTransaction 1#1 { inState 0x0#4 [.high] with cfg := { Config.defaults with hsPolls := 1 } }) t ∧
      t.pc = 0x0#4 ∧ t.result = 2#3 :=
  ⟨_, rfl, by decide, by decide⟩

/-- Transactions that publish: ACQUIRE with SUCCESS (V-E13), READ_SENSOR with CHECKSUM_MISMATCH on a frame of one 1 bit. -/
theorem witness_ShortestScriptLength :
    (inState 0x0#4 (shortestScript 0#40)).pc = 0x0#4 ∧ (inState 0x0#4 (shortestScript 0#40)).turns = [] ∧
    (∃ t, reaches 127 (acceptTransaction 0#1 (inState 0x0#4 (shortestScript 0#40))) t ∧ t.pc = 0x0#4 ∧ t.result = 1#3) ∧
    (∃ t, reaches 129 (acceptTransaction 1#1 (inState 0x0#4 (shortestScript 1#40))) t ∧ t.pc = 0x0#4 ∧ t.result = 4#3) :=
  ⟨rfl, rfl, ⟨_, rfl, by decide, by decide⟩, ⟨_, rfl, by decide, by decide⟩⟩

theorem witness_UnboundedWaitHangs :
    ∃ w ∈ waitTable, w.kind = .timeout ∧
      CodesOk { inState 0x5#4 [.low, .low] with cfg := { Config.defaults with waitPolls := .unbounded } } ∧
      w.code = 0x5#4 ∧ [Level.low, .low] = List.replicate 2 (otherLevel w.target) ++ [] :=
  ⟨⟨.waitHsHigh, 0x5#4, .high, .timeout, 0x6#4⟩, by decide⟩

theorem witness_OutcomeReadFromTheRegisters :
    ∀ r ∈ [1#3, 2#3, 3#3, 4#3], { State.reset with result := r }.pc = 0x0#4 ∧ { State.reset with result := r }.result = r := by
  decide

/-- The ends of the ranges, and a frame of the excepted field (V-D7). -/
theorem witness_DecodeOfEncodedReading :
    ((65535 : Nat) ≤ 65535 ∧ (-32767 : Int) ≤ -32767 ∧ (-32767 : Int) ≤ 32767) ∧
    (decodeFrame frameS5 = .ok { temperatureTenths := 200, humidityTenths := 500 } ∧
      frameS5.extractLsb' 8 16 ≠ 0x8000#16) ∧
    (decodeFrame 0x0000800080#40 = .ok { temperatureTenths := 0, humidityTenths := 0 } ∧
      (0x0000800080#40).extractLsb' 8 16 = 0x8000#16) := by decide

/-- A right frame, and the wrong frame of V-D11, which the flip of bit 0 makes right. -/
theorem witness_ChecksumSensitivity :
    (decodeFrame frameS5 = .ok { temperatureTenths := 200, humidityTenths := 500 } ∧ 0xBC#8 ≠ frameS5.extractLsb' 0 8) ∧
    (decodeFrame 0x01F400C8BC#40 = .checksumMismatch ∧
      decodeFrame (0x01F400C8BC#40 ^^^ BitVec.twoPow 40 0) = .ok { temperatureTenths := 200, humidityTenths := 500 }) := by
  decide

theorem witness_TemperatureRange :
    ((-32767 : Int) ≤ 32767 ∧ signMagnitude 0x7FFF#16 = 32767) ∧ signMagnitude 0x0000#16 = signMagnitude 0x8000#16 := by
  decide

theorem witness_ReadingRegisterLayout : (65535 : Nat) ≤ 65535 ∧ (-32767 : Int) ≤ -32767 ∧ (-32767 : Int) ≤ 32767 := by decide

theorem witness_FrameReceived_script :
    (inState 0x0#4 (transactionLevels 1 1 1 (List.replicate 40 ⟨1, 1⟩) frameS5)).script =
      transactionLevels 1 1 1 (List.replicate 40 ⟨1, 1⟩) frameS5 ++ [] :=
  (List.append_nil _).symm

/-! ### Witnesses of the timed view -/

/-- A line that is high from 0 to `width` microseconds and low at every other time. -/
noncomputable def pulse (width : ℝ) (t : ℝ) : Level :=
  if 0 ≤ t ∧ t < width then .high else .low

theorem pulse_high {width t : ℝ} (h0 : 0 ≤ t) (h1 : t < width) : pulse width t = .high := if_pos ⟨h0, h1⟩

theorem pulse_low {width t : ℝ} (h : width ≤ t) : pulse width t = .low := if_neg fun hc => absurd hc.2 (not_lt.mpr h)

theorem bitPulse_one : bitPulse (pulse 70) 0 70 1#1 :=
  ⟨fun h => absurd h (by decide), fun _ => by norm_num [longPulse], fun t h0 h1 => pulse_high h0 (by linarith),
    fun t h0 _ => pulse_low (by linarith)⟩

theorem bitPulse_zero : bitPulse (pulse 26) 0 26 0#1 :=
  ⟨fun _ => by norm_num [shortPulseMin, shortPulseMax], fun h => absurd h (by decide),
    fun t h0 h1 => pulse_high h0 (by linarith), fun t h0 _ => pulse_low (by linarith)⟩

theorem samplingWindow_defaults : samplingWindow Config.defaults 0 := by
  norm_num [samplingWindow, Config.defaults, shortPulseMax, longPulse]

/-- A 1, sampled 30 µs after its rise. -/
theorem witness_SampledBitIsTheSentBit_one :
    (∃ t, exec .bitSample { inState 0x8#4 [.high] with trace := [.read .high] } = .next t ∧
      timesTrace [⟨.read .high, 0, 0, 0⟩, ⟨.delayUs 30, 0, 30, 0⟩, ⟨.read .high, 30, 30, 30⟩] [] t.trace) ∧
    timedRun (pulse 70) [⟨.read .high, 0, 0, 0⟩, ⟨.delayUs 30, 0, 30, 0⟩, ⟨.read .high, 30, 30, 30⟩] ∧
    bitPulse (pulse 70) 0 70 1#1 ∧ samplingWindow Config.defaults 0 ∧
    (30 : ℝ) - 0 ≤ (Config.defaults.tSettleUs : ℝ) + (Config.defaults.pollUs : ℝ) + 0 := by
  refine ⟨⟨_, rfl, rfl⟩, ?_, bitPulse_one, samplingWindow_defaults, by norm_num [Config.defaults]⟩
  norm_num [timedRun, TimedPrim.respects, pulse]

/-- A 0 of the shortest width, sampled 30 µs after its rise. -/
theorem witness_SampledBitIsTheSentBit_zero :
    (∃ t, exec .bitSample { inState 0x8#4 [.low] with trace := [.read .high] } = .next t ∧
      timesTrace [⟨.read .high, 0, 0, 0⟩, ⟨.delayUs 30, 0, 30, 0⟩, ⟨.read .low, 30, 30, 30⟩] [] t.trace) ∧
    timedRun (pulse 26) [⟨.read .high, 0, 0, 0⟩, ⟨.delayUs 30, 0, 30, 0⟩, ⟨.read .low, 30, 30, 30⟩] ∧
    bitPulse (pulse 26) 0 26 0#1 := by
  refine ⟨⟨_, rfl, rfl⟩, ?_, bitPulse_zero⟩
  norm_num [timedRun, TimedPrim.respects, pulse]

/-- A tail of 45 µs after a sample at 30 µs. -/
theorem witness_TailEndsInTheFollowingGap :
    (∃ t u, exec .bitTail (inState 0x9#4 [.low]) = .next t ∧ exec .waitBitLow t = .next u ∧
      Prim.read .low = .read t.nextLevel) ∧
    timedRun (pulse 70) [⟨.read .high, 30, 30, 30⟩, ⟨.delayUs 45, 30, 75, 0⟩, ⟨.read .low, 75, 75, 75⟩] ∧
    bitPulse (pulse 70) 0 70 1#1 ∧ (0 : ℝ) + (Config.defaults.tSettleUs : ℝ) ≤ 30 ∧
    (longPulse : ℝ) ≤ (Config.defaults.tSettleUs : ℝ) + (Config.defaults.tTailUs : ℝ) ∧
    (75 : ℝ) < 0 + longPulse + bitGap := by
  refine ⟨⟨_, _, rfl, rfl, rfl⟩, ?_, bitPulse_one, ?_, ?_, ?_⟩ <;>
    norm_num [timedRun, TimedPrim.respects, pulse, Config.defaults, longPulse, bitGap]

/-- A start signal with no over-delay (V-T2). -/
theorem witness_StartSignalHoldsItsLevels :
    (∃ t, CodesOk (acceptTransaction 0#1 State.reset) ∧ reaches 3 (acceptTransaction 0#1 State.reset) t ∧
      timesTrace
        [⟨.setDir .output, 0, 0, 0⟩, ⟨.write .high, 0, 0, 0⟩, ⟨.delayMs 100, 0, 100000, 0⟩,
          ⟨.write .low, 100000, 100000, 0⟩, ⟨.delayMs 2, 100000, 102000, 0⟩, ⟨.write .high, 102000, 102000, 0⟩,
          ⟨.delayUs 0, 102000, 102000, 0⟩, ⟨.setDir .input, 102000, 102000, 0⟩]
        (acceptTransaction 0#1 State.reset).trace t.trace) ∧
    timedRun (pulse 0)
        [⟨.setDir .output, 0, 0, 0⟩, ⟨.write .high, 0, 0, 0⟩, ⟨.delayMs 100, 0, 100000, 0⟩,
          ⟨.write .low, 100000, 100000, 0⟩, ⟨.delayMs 2, 100000, 102000, 0⟩, ⟨.write .high, 102000, 102000, 0⟩,
          ⟨.delayUs 0, 102000, 102000, 0⟩, ⟨.setDir .input, 102000, 102000, 0⟩] := by
  refine ⟨⟨_, by decide, rfl, rfl⟩, ?_⟩
  norm_num [timedRun, TimedPrim.respects]

/-- A sensor that pulls the line low from `a` until `b`. -/
noncomputable def pullsLow (a b t : ℝ) : Bool := decide (a ≤ t ∧ t < b)

theorem acknowledges_pullsLow {a b : ℝ} (h : a < b) (last : ℝ) : acknowledges (pullsLow a b) a b last :=
  ⟨h, fun t _ => by simp [pullsLow]⟩

/-- A read High before the sensor pulls the line low at 10 µs, and one Low after. -/
theorem witness_ReleasedLineReadsHigh :
    SafeState (inState 0x4#4 [.high, .low]) ∧ 0x4#4 ≤ (inState 0x4#4 [.high, .low]).pc ∧
    (∃ t, reaches 2 (inState 0x4#4 [.high, .low]) t ∧
      timesTrace [⟨.read .high, 0, 0, 0⟩, ⟨.delayUs 1, 0, 1, 0⟩, ⟨.read .low, 10, 10, 10⟩]
        (inState 0x4#4 [.high, .low]).trace t.trace) ∧
    timedRun (fun t => lineLevel .input .high (pullsLow 10 50 t))
      [⟨.read .high, 0, 0, 0⟩, ⟨.delayUs 1, 0, 1, 0⟩, ⟨.read .low, 10, 10, 10⟩] ∧
    lineFollows (fun t => lineLevel .input .high (pullsLow 10 50 t)) (pullsLow 10 50)
      (inState 0x4#4 [.high, .low]).dir (inState 0x4#4 [.high, .low]).drv
      [⟨.read .high, 0, 0, 0⟩, ⟨.delayUs 1, 0, 1, 0⟩, ⟨.read .low, 10, 10, 10⟩] ∧
    pullsLow 10 50 0 = false ∧ pullsLow 10 50 10 = true := by
  refine ⟨⟨by decide, by decide, by decide, by decide, by decide, by decide⟩, by decide, ⟨_, rfl, rfl⟩, ?_,
    ⟨fun _ _ _ => rfl, fun _ _ _ => rfl, fun _ _ _ => rfl⟩, ?_, ?_⟩ <;>
    norm_num [timedRun, TimedPrim.respects, pullsLow, lineLevel]

/-- START_RELEASE with an acknowledgement wait of `n` reads. -/
def releasing (n : Nat) (script : List Level) : State :=
  { driving 0x3#4 .low with cfg := { Config.defaults with hsPolls := n }, script := script }

/-- An acknowledgement from 10 to 50 µs, a pin that is an input from 100 µs on, and a wait of two reads. -/
theorem witness_AcknowledgementNeedsReleaseInTime_late :
    SafeState (releasing 2 [.high, .high]) ∧
    (∃ t, reaches 3 (releasing 2 [.high, .high]) t ∧ t.result = 2#3 ∧ (releasing 2 [.high, .high]).cfg.hsPolls ≤ 2 ∧
      timesTrace
        [⟨.write .high, 0, 0, 0⟩, ⟨.delayUs 0, 0, 0, 0⟩, ⟨.setDir .input, 0, 100, 0⟩, ⟨.read .high, 100, 100, 100⟩,
          ⟨.delayUs 1, 100, 101, 0⟩, ⟨.read .high, 101, 101, 101⟩]
        (releasing 2 [.high, .high]).trace t.trace) ∧
    timedRun (fun _ => .high)
        [⟨.write .high, 0, 0, 0⟩, ⟨.delayUs 0, 0, 0, 0⟩, ⟨.setDir .input, 0, 100, 0⟩, ⟨.read .high, 100, 100, 100⟩,
          ⟨.delayUs 1, 100, 101, 0⟩, ⟨.read .high, 101, 101, 101⟩] ∧
    lineFollows (fun _ => .high) (pullsLow 10 50) .output .low
        [⟨.write .high, 0, 0, 0⟩, ⟨.delayUs 0, 0, 0, 0⟩, ⟨.setDir .input, 0, 100, 0⟩, ⟨.read .high, 100, 100, 100⟩,
          ⟨.delayUs 1, 100, 101, 0⟩, ⟨.read .high, 101, 101, 101⟩] ∧
    acknowledges (pullsLow 10 50) 10 50 101 ∧ ¬ releasedInTime ⟨.setDir .input, 0, 100, 0⟩ 50 := by
  refine ⟨⟨by decide, by decide, by decide, by decide, by decide, by decide⟩, ⟨_, rfl, by decide, by decide, rfl⟩, ?_, ?_,
    acknowledges_pullsLow (by norm_num) _, ?_⟩
  · norm_num [timedRun, TimedPrim.respects]
  · have free : ∀ t : ℝ, 100 ≤ t → pullsLow 10 50 t = false := fun t h =>
      decide_eq_false fun hc => absurd hc.2 (by linarith)
    exact ⟨fun _ _ _ => rfl, fun _ _ _ => rfl, fun t h _ => by rw [free t h]; rfl, fun t h _ => by rw [free t h]; rfl,
      fun t h _ => by rw [free t h]; rfl, fun t h _ => by rw [free t (by linarith [show (101 : ℝ) ≤ t from h])]; rfl⟩
  · norm_num [releasedInTime]

/-- A pin that is an input in time, and one read before the acknowledgement begins: the wait goes on. -/
theorem witness_AcknowledgementNeedsReleaseInTime_inTime :
    SafeState (releasing 2 [.high]) ∧
    (∃ t, reaches 2 (releasing 2 [.high]) t ∧ t.pc = 0x4#4 ∧
      timesTrace
        [⟨.write .high, 0, 0, 0⟩, ⟨.delayUs 0, 0, 0, 0⟩, ⟨.setDir .input, 0, 0, 0⟩, ⟨.read .high, 0, 0, 0⟩,
          ⟨.delayUs 1, 0, 1, 0⟩]
        (releasing 2 [.high]).trace t.trace) ∧
    timedRun (fun _ => .high)
        [⟨.write .high, 0, 0, 0⟩, ⟨.delayUs 0, 0, 0, 0⟩, ⟨.setDir .input, 0, 0, 0⟩, ⟨.read .high, 0, 0, 0⟩,
          ⟨.delayUs 1, 0, 1, 0⟩] ∧
    lineFollows (fun _ => .high) (pullsLow 10 50) .output .low
        [⟨.write .high, 0, 0, 0⟩, ⟨.delayUs 0, 0, 0, 0⟩, ⟨.setDir .input, 0, 0, 0⟩, ⟨.read .high, 0, 0, 0⟩,
          ⟨.delayUs 1, 0, 1, 0⟩] ∧
    acknowledges (pullsLow 10 50) 10 50 1 ∧ releasedInTime ⟨.setDir .input, 0, 0, 0⟩ 50 := by
  refine ⟨⟨by decide, by decide, by decide, by decide, by decide, by decide⟩, ⟨_, rfl, by decide, rfl⟩, ?_, ?_,
    acknowledges_pullsLow (by norm_num) _, ?_⟩
  · norm_num [timedRun, TimedPrim.respects]
  · have free : ∀ t : ℝ, t ≤ 1 → pullsLow 10 50 t = false := fun t h =>
      decide_eq_false fun hc => absurd hc.1 (by linarith)
    exact ⟨fun _ _ _ => rfl, fun _ _ _ => rfl,
      fun t _ h => by rw [free t (by linarith [show t < (0 : ℝ) from h])]; rfl,
      fun t _ h => by rw [free t (by linarith [show t < (0 : ℝ) from h])]; rfl, fun t _ h => by rw [free t h]; rfl⟩
  · norm_num [releasedInTime]

end Sys2Proof.Tests
end

section
/-! PROOFS, family 00_scope.md: which states a step refuses (R8, R242) and which instruction a step runs (R13, R60, R100, R85). -/

namespace Sys2Proof.Machine

/-! ### No instruction is refused: every refusal is raised before one runs -/

theorem ne_refused_of_next {o : Out} (h : ∃ t, o = .next t) (r : Refusal) : o ≠ .refused r := by
  rintro rfl
  simp at h

theorem whenIdle_next (s effect : State) : ∃ t, whenIdle s effect = .next t := by
  by_cases h : s.pc = StateCode.idle
  · exact ⟨_, whenIdle_idle effect h⟩
  · exact ⟨_, whenIdle_busy effect h⟩

theorem lineWrite_ne_refused (l : Level) (s : State) {k : State → Out} {r : Refusal} (hk : ∀ s', k s' ≠ .refused r) :
    lineWrite l s k ≠ .refused r := by
  cases h : s.dir with
  | input => simp [lineWrite_input l k h]
  | output => rw [lineWrite_output l k h]; exact hk _

theorem lineRead_ne_refused (s : State) {k : Level → State → Out} {r : Refusal} (hk : ∀ l s', k l s' ≠ .refused r) :
    lineRead s k ≠ .refused r := by
  cases h : s.dir with
  | input => rw [lineRead_input k h]; exact hk _ _
  | output => simp [lineRead_output k h]

theorem pollOnce_ne_refused (target : Level) (bound : Config.Bound) (kind : FailKind) (following : BitVec 4) (s : State)
    (r : Refusal) : pollOnce target bound kind following s ≠ .refused r := by
  cases h : s.dir with
  | input => exact ne_refused_of_next (pollOnce_next h) r
  | output => simp [pollOnce, lineRead_output _ h]

theorem execBitSample_ne_refused (s : State) (r : Refusal) : execBitSample s ≠ .refused r := by
  apply lineRead_ne_refused
  intro l s'
  dsimp only
  split
  · exact nofun
  · exact nofun

theorem execBitCommit_ne_refused (s : State) (r : Refusal) : execBitCommit s ≠ .refused r := by
  unfold execBitCommit
  dsimp only
  repeat' split
  all_goals exact nofun

/-- Every command goes on, BUSY or not (R101 to R106). -/
theorem exec_decodeCommand_next (c : BitVec 8) (s : State) : ∃ t, exec (decodeCommand c) s = .next t := by
  unfold decodeCommand
  split
  · exact ⟨s, rfl⟩
  split
  · exact whenIdle_next s _
  split
  · exact whenIdle_next s _
  split
  · exact whenIdle_next s _
  repeat' split
  all_goals exact ⟨s, rfl⟩

theorem exec_ne_refused (i : Instr) (s : State) (r : Refusal) : exec i s ≠ .refused r := by
  cases i with
  | acquire | decode | readSensor | wrFrameLo _ | wrFrameHi _ => exact ne_refused_of_next (whenIdle_next s _) r
  | wrCtrl v => rw [exec_wrCtrl]; exact ne_refused_of_next (exec_decodeCommand_next _ s) r
  | startHigh | startLow | startRelease =>
    dsimp only [exec]
    apply lineWrite_ne_refused
    exact fun _ => nofun
  | waitAckLow | waitHsHigh | waitHsLow | waitBitHigh | waitBitLow => exact pollOnce_ne_refused _ _ _ _ s r
  | bitSample => exact execBitSample_ne_refused s r
  | bitCommit => exact execBitCommit_ne_refused s r
  | nop | reservedCmd04 _ | reservedCmd08 _ | reservedCmd10 _ | reservedCmd20 _ | reservedCmd40 _ | reservedCmd80 _
  | idle | bitTail | done
  | rdCtrl | rdStatus | rdFrameLo | rdFrameHi | rdReading | rdReserved14 | rdReserved18 | rdReserved1C
  | wrStatus _ | wrReading _ | wrReserved14 _ | wrReserved18 _ | wrReserved1C _ => exact nofun

/-! ### What a step refuses -/

/-- A step refuses an ill-formed state or a turn that decodes to no instruction, and nothing else. -/
theorem step_refused_cases {s : State} {r : Refusal} (h : step s = .refused r) :
    illFormed s = some r ∨ ∃ j, fetch s = .reject j ∧ r = refusalOf j := by
  unfold step at h
  split at h
  next hr => cases h; exact .inl hr
  next =>
    split at h
    · exact absurd h (exec_ne_refused _ _ r)
    · cases h
    next hf => cases h; exact .inr ⟨_, hf, rfl⟩

theorem step_of_illFormed {s : State} {r : Refusal} (h : illFormed s = some r) : step s = .refused r := by
  simp [step, h]

/-- The configuration is looked at first, and nothing else is refused as illegal (I28). -/
theorem illFormed_eq_illegalConfiguration_iff (s : State) :
    illFormed s = some .illegalConfiguration ↔ configLegal s.cfg = false := by
  unfold illFormed
  split
  · simp_all
  · repeat' split
    all_goals simp_all

theorem refusalOf_ne_illegalConfiguration (j : Reject) : refusalOf j ≠ .illegalConfiguration := by
  cases j <;> exact nofun

theorem step_illegalConfiguration_iff (s : State) :
    step s = .refused .illegalConfiguration ↔ configLegal s.cfg = false := by
  rw [← illFormed_eq_illegalConfiguration_iff]
  constructor
  · intro h
    rcases step_refused_cases h with hi | ⟨j, -, hj⟩
    · exact hi
    · exact absurd hj.symm (refusalOf_ne_illegalConfiguration j)
  · exact step_of_illFormed

theorem boundLegal_iff (b : Config.Bound) : boundLegal b = true ↔ ∀ n, b = .reads n → 1 ≤ n := by
  cases b <;> simp [boundLegal]

/-- The legal ranges of R8 as propositions. -/
theorem configLegal_iff (p : Config.Params) :
    configLegal p = true ↔
      1 ≤ p.tIdleMs ∧ 1 ≤ p.tStartLowMs ∧ p.tStartLowMs ≤ 10 ∧ 1 ≤ p.hsPolls ∧ ∀ n, p.waitPolls = .reads n → 1 ≤ n := by
  simp only [configLegal, Bool.and_eq_true, decide_eq_true_eq, boundLegal_iff, and_assoc]

/-- Settles O13: only the configuration check raises this refusal, since no instruction raises any and no rejected turn
raises this one. -/
theorem illegalConfigurationIsRefused : Obligations.IllegalConfigurationIsRefused := by
  intro s
  rw [step_illegalConfiguration_iff, ← configLegal_iff, Bool.not_eq_true]

/-! ### Which instruction a step runs -/

theorem step_of_fetch_instr {s s' : State} {i : Instr} (h : CodesOk s) (hf : fetch s = .instr i s') :
    step s = exec i s' := by
  rw [step_of_codesOk h, hf]

/-- A read at an offset of the window is decoded from that offset, wherever the window lies (R58, R100). -/
@[simp] theorem decodeAccess_memRead (base off width : Nat) :
    decodeAccess base (.memRead (base + off) width) = decode (.read off width) := by
  simp [decodeAccess, accessCode]

@[simp] theorem decodeAccess_memWrite (base off width : Nat) (v : Word) :
    decodeAccess base (.memWrite (base + off) width v) = decode (.write off width v) := by
  simp [decodeAccess, accessCode]

theorem decodeAccess_readStatus (base : Nat) : decodeAccess base (readStatusAccess base) = .ok .rdStatus :=
  decodeAccess_memRead base Offset.status 4

theorem fetch_nil {s : State} {i : Instr} (ht : s.turns = []) (hd : decode (.state s.pc) = .ok i) :
    fetch s = .instr i s := by
  simp [fetch, ht, hd, runAt]

theorem fetch_engine {s : State} {i : Instr} {rest : List Turn} (ht : s.turns = .engine :: rest)
    (hd : decode (.state s.pc) = .ok i) : fetch s = .instr i { s with turns := rest } := by
  simp [fetch, ht, hd, runAt]

theorem fetch_access {s : State} {i : Instr} {a : Access} {rest : List Turn} (ht : s.turns = .access a :: rest)
    (hd : decodeAccess s.cfg.regBase a = .ok i) : fetch s = .instr i { s with turns := rest } := by
  simp [fetch, ht, hd, runAt]

theorem fetch_waitIdle {s : State} {rest : List Turn} (ht : s.turns = .waitIdle :: rest) :
    fetch s = .instr .rdStatus { s with turns := afterWaitIdle s rest } := by
  simp [fetch, ht, decodeAccess_readStatus, runAt]

/-- Bit 0 of STATUS is BUSY (R30). -/
theorem statusWord_bit0 (s : State) : s.statusWord.extractLsb' 0 1 = s.busyBit :=
  BitVec.extractLsb'_append_eq_right

theorem afterWaitIdle_idle {s : State} (rest : List Turn) (h : s.pc = StateCode.idle) : afterWaitIdle s rest = rest := by
  simp [afterWaitIdle, statusWord_bit0, State.busyBit, (not_busy_iff s).mpr h]

theorem afterWaitIdle_busy {s : State} (rest : List Turn) (h : s.pc ≠ StateCode.idle) :
    afterWaitIdle s rest = .engine :: .waitIdle :: rest := by
  simp [afterWaitIdle, statusWord_bit0, State.busyBit, (busy_iff s).mpr h]

/-- Settles O15, by the kind of the next turn. -/
theorem stepRunsTheDecodedInstruction : Obligations.StepRunsTheDecodedInstruction := by
  intro s hc
  refine ⟨?noTurn, ?engine, ?read, ?write, ?idleWait, ?busyWait⟩
  case noTurn => exact fun i ht hd => step_of_fetch_instr hc (fetch_nil ht hd)
  case engine => exact fun i rest ht hd => step_of_fetch_instr hc (fetch_engine ht hd)
  case read =>
    exact fun i rest off width ht hd => step_of_fetch_instr hc (fetch_access ht ((decodeAccess_memRead ..).trans hd))
  case write =>
    exact fun i rest off width v ht hd => step_of_fetch_instr hc (fetch_access ht ((decodeAccess_memWrite ..).trans hd))
  case idleWait =>
    intro rest ht hp
    rw [step_of_fetch_instr hc (fetch_waitIdle ht), afterWaitIdle_idle rest hp]
  case busyWait =>
    intro rest ht hp
    rw [step_of_fetch_instr hc (fetch_waitIdle ht), afterWaitIdle_busy rest hp]

end Sys2Proof.Machine
end

section
/-! PROOFS, family 10_state.md: what one step does to each piece of the block's state (R20 to R41). -/

namespace Sys2Proof.Machine

/-! ### What an engine turn can do, said once -/

@[simp] theorem afterCommit_mode (s : State) : (afterCommit s).mode = s.mode := by unfold afterCommit; split <;> rfl
@[simp] theorem afterCommit_buf (s : State) : (afterCommit s).buf = s.buf := by unfold afterCommit; split <;> rfl
@[simp] theorem afterCommit_bidx (s : State) : (afterCommit s).bidx = s.bidx := by unfold afterCommit; split <;> rfl
@[simp] theorem afterCommit_acc (s : State) : (afterCommit s).acc = s.acc := by unfold afterCommit; split <;> rfl
@[simp] theorem afterCommit_nbit (s : State) : (afterCommit s).nbit = s.nbit := by unfold afterCommit; split <;> rfl
@[simp] theorem afterCommit_sbit (s : State) : (afterCommit s).sbit = s.sbit := by unfold afterCommit; split <;> rfl
@[simp] theorem afterCommit_result (s : State) : (afterCommit s).result = s.result := by
  unfold afterCommit; split <;> rfl
@[simp] theorem afterCommit_frame (s : State) : (afterCommit s).frame = s.frame := by unfold afterCommit; split <;> rfl
@[simp] theorem afterCommit_reading (s : State) : (afterCommit s).reading = s.reading := by
  unfold afterCommit; split <;> rfl
@[simp] theorem afterCommit_dir (s : State) : (afterCommit s).dir = s.dir := by unfold afterCommit; split <;> rfl
@[simp] theorem afterCommit_drv (s : State) : (afterCommit s).drv = s.drv := by unfold afterCommit; split <;> rfl
@[simp] theorem afterCommit_cfg (s : State) : (afterCommit s).cfg = s.cfg := by unfold afterCommit; split <;> rfl
@[simp] theorem afterCommit_turns (s : State) : (afterCommit s).turns = s.turns := by unfold afterCommit; split <;> rfl
@[simp] theorem afterCommit_script (s : State) : (afterCommit s).script = s.script := by
  unfold afterCommit; split <;> rfl
@[simp] theorem afterCommit_draws (s : State) : (afterCommit s).draws = s.draws := by unfold afterCommit; split <;> rfl

theorem afterCommit_pc (s : State) :
    (afterCommit s).pc = if s.bidx = 5#3 then StateCode.done else StateCode.waitBitHigh := by
  unfold afterCommit; split <;> rfl

theorem afterCommit_done {s : State} (h : s.bidx = 5#3) : afterCommit s = goTo StateCode.done s := if_pos h

theorem afterCommit_nextBit {s : State} (h : s.bidx ≠ 5#3) : afterCommit s = enterWait StateCode.waitBitHigh s :=
  if_neg h

/-- The next states of an engine turn at `s`, by the state `pc` names and the branch its pseudocode takes (R131 to
R144). -/
inductive EngineStep (s : State) : State → Prop
  | idle (hp : s.pc = StateCode.idle) : EngineStep s s
  | startHigh (hp : s.pc = StateCode.startHigh) :
      EngineStep s
        { s with
          dir := .output, drv := .high, pc := StateCode.startLow
          trace := .delayMs s.cfg.tIdleMs :: .write .high :: .setDir .output :: s.trace }
  | startLow (hp : s.pc = StateCode.startLow) (hd : s.dir = .output) :
      EngineStep s
        { s with
          drv := .low, pc := StateCode.startRelease
          trace := .delayMs s.cfg.tStartLowMs :: .write .low :: s.trace }
  | startRelease (hp : s.pc = StateCode.startRelease) (hd : s.dir = .output) :
      EngineStep s
        { s with
          drv := .high, dir := .input, poll := 0, pc := StateCode.waitAckLow
          trace := .setDir .input :: .delayUs s.cfg.tReleaseUs :: .write .high :: s.trace }
  | waitEnds (w : WaitRow) (hw : w ∈ waitTable) (hp : s.pc = w.code) (hd : s.dir = .input)
      (hl : s.nextLevel = w.target) :
      EngineStep s { tookLevel s with poll := 0, pc := w.following }
  | waitFails (w : WaitRow) (hw : w ∈ waitTable) (hp : s.pc = w.code) (hd : s.dir = .input)
      (hl : s.nextLevel ≠ w.target) (he : exhausted (w.bound s.cfg) (s.poll + 1) = true) :
      EngineStep s { tookLevel s with poll := s.poll + 1, result := failCode w.kind, pc := StateCode.idle }
  | waitGoesOn (w : WaitRow) (hw : w ∈ waitTable) (hp : s.pc = w.code) (hd : s.dir = .input)
      (hl : s.nextLevel ≠ w.target) (he : exhausted (w.bound s.cfg) (s.poll + 1) = false) :
      EngineStep s
        { tookLevel s with
          poll := s.poll + 1, trace := .delayUs s.cfg.pollUs :: .read s.nextLevel :: s.trace }
  | sampledHigh (hp : s.pc = StateCode.bitSample) (hd : s.dir = .input) (hl : s.nextLevel = .high) :
      EngineStep s { tookLevel (delayUs s.cfg.tSettleUs s) with sbit := 1#1, pc := StateCode.bitTail }
  | sampledLow (hp : s.pc = StateCode.bitSample) (hd : s.dir = .input) (hl : s.nextLevel = .low) :
      EngineStep s { tookLevel (delayUs s.cfg.tSettleUs s) with sbit := 0#1, pc := StateCode.bitCommit }
  | bitTail (hp : s.pc = StateCode.bitTail) :
      EngineStep s (enterWait StateCode.waitBitLow (delayUs s.cfg.tTailUs s))
  | bitShifted (hp : s.pc = StateCode.bitCommit) (hn : s.nbit + 1#4 ≠ 8#4) :
      EngineStep s (afterCommit { s with acc := shiftIn s.acc s.sbit, nbit := s.nbit + 1#4 })
  | byteStored (hp : s.pc = StateCode.bitCommit) (hn : s.nbit + 1#4 = 8#4) (b : FrameBuffer)
      (hb : s.buf.store s.bidx (shiftIn s.acc s.sbit) = some b) :
      EngineStep s (afterCommit { s with buf := b, bidx := s.bidx + 1#3, acc := 0x00#8, nbit := 0#4 })
  | doneAcquire (hp : s.pc = StateCode.done) (hm : s.mode = 0#1) :
      EngineStep s { s with frame := s.buf.frame, result := ResultCode.success, pc := StateCode.idle }
  | doneReadSensor (hp : s.pc = StateCode.done) (hm : s.mode ≠ 0#1) :
      EngineStep s (goTo StateCode.idle (recordDecode s.buf.frame { s with frame := s.buf.frame }))

theorem lineWrite_next_iff {l : Level} {s t : State} {k : State → Out} :
    lineWrite l s k = .next t ↔ s.dir = .output ∧ k (issue (.write l) { s with drv := l }) = .next t := by
  cases h : s.dir <;> simp [lineWrite, h]

theorem lineRead_next_iff {s t : State} {k : Level → State → Out} :
    lineRead s k = .next t ↔ s.dir = .input ∧ k s.nextLevel (tookLevel s) = .next t := by
  cases h : s.dir <;> simp [lineRead, h]

theorem engineStep_of_execStartHigh {s t : State} (hp : s.pc = StateCode.startHigh) (h : execStartHigh s = .next t) :
    EngineStep s t := by
  obtain ⟨-, h⟩ := lineWrite_next_iff.mp h
  cases h
  exact .startHigh hp

theorem engineStep_of_execStartLow {s t : State} (hp : s.pc = StateCode.startLow) (h : execStartLow s = .next t) :
    EngineStep s t := by
  obtain ⟨hd, h⟩ := lineWrite_next_iff.mp h
  cases h
  exact .startLow hp hd

theorem engineStep_of_execStartRelease {s t : State} (hp : s.pc = StateCode.startRelease)
    (h : execStartRelease s = .next t) : EngineStep s t := by
  obtain ⟨hd, h⟩ := lineWrite_next_iff.mp h
  cases h
  exact .startRelease hp hd

/-- Every wait of the table runs one poll iteration with its row's bound, target and failure (R136 to R139, R142). -/
theorem exec_wait {w : WaitRow} (hw : w ∈ waitTable) (s : State) :
    exec w.instr s = pollOnce w.target (w.bound s.cfg) w.kind w.following s := by
  fin_cases hw <;> rfl

theorem decode_waitCode {w : WaitRow} (hw : w ∈ waitTable) : decode (.state w.code) = .ok w.instr := by
  fin_cases hw <;> rfl

theorem engineStep_of_pollOnce {w : WaitRow} {s t : State} (hw : w ∈ waitTable) (hp : s.pc = w.code)
    (h : pollOnce w.target (w.bound s.cfg) w.kind w.following s = .next t) : EngineStep s t := by
  obtain ⟨hd, ⟨hl, rfl⟩ | ⟨hl, he, rfl⟩ | ⟨hl, he, rfl⟩⟩ := pollOnce_cases h
  · exact .waitEnds w hw hp hd hl
  · exact .waitFails w hw hp hd hl he
  · exact .waitGoesOn w hw hp hd hl he

@[simp] theorem nextLevel_delayUs (n : Nat) (s : State) : (delayUs n s).nextLevel = s.nextLevel := rfl

/-- BIT_SAMPLE on either level (R140). -/
theorem execBitSample_high {s : State} (hd : s.dir = .input) (hl : s.nextLevel = .high) :
    execBitSample s = .next { tookLevel (delayUs s.cfg.tSettleUs s) with sbit := 1#1, pc := StateCode.bitTail } := by
  rw [execBitSample, lineRead_input _ (by exact hd), nextLevel_delayUs, hl]; rfl

theorem execBitSample_low {s : State} (hd : s.dir = .input) (hl : s.nextLevel = .low) :
    execBitSample s = .next { tookLevel (delayUs s.cfg.tSettleUs s) with sbit := 0#1, pc := StateCode.bitCommit } := by
  rw [execBitSample, lineRead_input _ (by exact hd), nextLevel_delayUs, hl]; rfl

theorem engineStep_of_execBitSample {s t : State} (hp : s.pc = StateCode.bitSample)
    (h : execBitSample s = .next t) : EngineStep s t := by
  have hd : s.dir = .input := (lineRead_next_iff.mp h).1
  cases hl : s.nextLevel with
  | high => rw [execBitSample_high hd hl] at h; cases h; exact .sampledHigh hp hd hl
  | low => rw [execBitSample_low hd hl] at h; cases h; exact .sampledLow hp hd hl

theorem engineStep_of_execBitCommit {s t : State} (hp : s.pc = StateCode.bitCommit)
    (h : execBitCommit s = .next t) : EngineStep s t := by
  unfold execBitCommit at h
  dsimp only at h
  split at h
  next hn =>
    split at h
    next b hb => cases h; exact .byteStored hp hn b hb
    next => cases h
  next hn => cases h; exact .bitShifted hp hn

theorem engineStep_of_execDone {s t : State} (hp : s.pc = StateCode.done) (h : execDone s = .next t) :
    EngineStep s t := by
  cases h
  dsimp only
  split
  next hm => exact .doneAcquire hp hm
  next hm => exact .doneReadSensor hp hm

/-- What runs on an engine turn is one of the listed steps. -/
theorem engineStep_of_exec {s t : State} {i : Instr} (hd : decode (.state s.pc) = .ok i) (h : exec i s = .next t) :
    EngineStep s t := by
  rcases decodeState_ok hd with ⟨hp, rfl⟩ | ⟨hp, rfl⟩ | ⟨hp, rfl⟩ | ⟨hp, rfl⟩ | ⟨hp, rfl⟩ | ⟨hp, rfl⟩ | ⟨hp, rfl⟩
    | ⟨hp, rfl⟩ | ⟨hp, rfl⟩ | ⟨hp, rfl⟩ | ⟨hp, rfl⟩ | ⟨hp, rfl⟩ | ⟨hp, rfl⟩
  · cases h; exact .idle hp
  · exact engineStep_of_execStartHigh hp h
  · exact engineStep_of_execStartLow hp h
  · exact engineStep_of_execStartRelease hp h
  · exact engineStep_of_pollOnce (w := ⟨.waitAckLow, 0x4#4, .low, .noResponse, 0x5#4⟩) (by decide) hp h
  · exact engineStep_of_pollOnce (w := ⟨.waitHsHigh, 0x5#4, .high, .timeout, 0x6#4⟩) (by decide) hp h
  · exact engineStep_of_pollOnce (w := ⟨.waitHsLow, 0x6#4, .low, .timeout, 0x7#4⟩) (by decide) hp h
  · exact engineStep_of_pollOnce (w := ⟨.waitBitHigh, 0x7#4, .high, .timeout, 0x8#4⟩) (by decide) hp h
  · exact engineStep_of_execBitSample hp h
  · cases h; exact .bitTail hp
  · exact engineStep_of_pollOnce (w := ⟨.waitBitLow, 0xA#4, .low, .timeout, 0xB#4⟩) (by decide) hp h
  · exact engineStep_of_execBitCommit hp h
  · exact engineStep_of_execDone hp h

/-! ### What a host access can do, said once -/

/-- The next states of the access `a` of a window at `base`, once its turn is taken: a read's value, nothing, a
transaction started, FRAME decoded, or FRAME written (R101 to R109). -/
inductive HostStep (base : Nat) (a : Access) (s : State) : State → Prop
  | replied (v : Word) : HostStep base a s (reply v s)
  | ignored : HostStep base a s s
  | accepted (v : Word) (m : BitVec 1) (hp : s.pc = StateCode.idle) (ha : a = .memWrite base 4 v)
      (hc : commandByte v = CmdCode.acquire ∧ m = 0#1 ∨ commandByte v = CmdCode.readSensor ∧ m = 1#1) :
      HostStep base a s (acceptTransaction m s)
  | decoded (v : Word) (hp : s.pc = StateCode.idle) (ha : a = .memWrite base 4 v)
      (hc : commandByte v = CmdCode.decode) : HostStep base a s (recordDecode s.frame s)
  | frameLoWritten (v : Word) (hp : s.pc = StateCode.idle) (ha : a = .memWrite (base + Offset.frameLo) 4 v) :
      HostStep base a s { s with frame := withFrameLo s.frame v }
  | frameHiWritten (v : Word) (hp : s.pc = StateCode.idle) (ha : a = .memWrite (base + Offset.frameHi) 4 v) :
      HostStep base a s { s with frame := withFrameHi s.frame v }

/-- What runs on a host access is one of the listed steps. -/
theorem hostStep_of_exec {base : Nat} {a : Access} {s t : State} {i : Instr} (hd : decodeAccess base a = .ok i)
    (h : exec i s = .next t) : HostStep base a s t := by
  obtain ⟨off, ho, ⟨-, rfl⟩ | ⟨v, ha, rfl⟩⟩ := decodeAccess_ok hd
  case inl =>
    obtain ⟨v, hv⟩ := exec_readAt off s
    rw [hv] at h
    cases h
    exact .replied v
  case inr =>
    rcases exec_writeAt_cases ho h with rfl | ⟨hp, hw⟩
    · exact .ignored
    rcases hw with ⟨rfl, hc, rfl⟩ | ⟨rfl, hc, rfl⟩ | ⟨rfl, hc, rfl⟩ | ⟨rfl, rfl⟩ | ⟨rfl, rfl⟩
    · exact .accepted v 0#1 hp ha (.inl ⟨hc, rfl⟩)
    · exact .accepted v 1#1 hp ha (.inr ⟨hc, rfl⟩)
    · exact .decoded v hp ha hc
    · exact .frameLoWritten v hp ha
    · exact .frameHiWritten v hp ha

/-- The four kinds of turn, each with what it can do. -/
theorem step_cases {s t : State} (h : step s = .next t) :
    CodesOk s ∧
      ((engineTurn s ∧ EngineStep { s with turns := s.turns.tail } t) ∨
       (∃ a rest, s.turns = .access a :: rest ∧ HostStep s.cfg.regBase a { s with turns := rest } t) ∨
       (∃ rest, s.turns = .waitIdle :: rest ∧ t = reply s.statusWord { s with turns := afterWaitIdle s rest }) ∨
       (∃ rest, s.turns = .reset :: rest ∧ t = resetBlock { s with turns := rest })) := by
  obtain ⟨hc, ⟨he, i, hd, hx⟩ | ⟨a, rest, i, ht, hd, hx⟩ | hw | hr⟩ := step_next_cases h
  · exact ⟨hc, .inl ⟨he, engineStep_of_exec hd hx⟩⟩
  · exact ⟨hc, .inr (.inl ⟨a, rest, ht, hostStep_of_exec hd hx⟩)⟩
  · exact ⟨hc, .inr (.inr (.inl hw))⟩
  · exact ⟨hc, .inr (.inr (.inr hr))⟩

/-! ### The invariant, clause by clause: an engine step keeps each -/

theorem EngineStep.cfg_eq {s t : State} (h : EngineStep s t) : t.cfg = s.cfg := by cases h <;> simp
theorem EngineStep.turns_eq {s t : State} (h : EngineStep s t) : t.turns = s.turns := by cases h <;> simp
theorem EngineStep.mode_eq {s t : State} (h : EngineStep s t) : t.mode = s.mode := by cases h <;> simp

/-- No wait's code is IDLE or a state of the start signal, and no wait leads there. -/
theorem waitTable_codes {w : WaitRow} (hw : w ∈ waitTable) :
    0x4#4 ≤ w.code ∧ w.code ≤ 0xA#4 ∧ 0x5#4 ≤ w.following ∧ w.following ≤ 0xB#4 := by
  fin_cases hw <;> decide

theorem waitCode_ne_idle {w : WaitRow} {s : State} (hw : w ∈ waitTable) (hp : s.pc = w.code) :
    s.pc ≠ StateCode.idle := by
  rintro hi
  exact absurd (hi ▸ hp ▸ (waitTable_codes hw).1) (by decide)

theorem waitCode_ne_startHigh {w : WaitRow} {s : State} (hw : w ∈ waitTable) (hp : s.pc = w.code) :
    s.pc ≠ StateCode.startHigh := by
  rintro hi
  exact absurd (hi ▸ hp ▸ (waitTable_codes hw).1) (by decide)

theorem waitFollowing_ne_idle {w : WaitRow} (hw : w ∈ waitTable) : w.following ≠ StateCode.idle := by
  fin_cases hw <;> decide

theorem failCode_cases (k : FailKind) : failCode k = 2#3 ∨ failCode k = 3#3 := by cases k <;> decide

theorem recordDecode_result_cases (f : Frame) (s : State) :
    (recordDecode f s).result = 1#3 ∨ (recordDecode f s).result = 4#3 := by
  unfold recordDecode
  split
  · exact .inl rfl
  · exact .inr rfl

theorem resultLegal_recordDecode (f : Frame) (s : State) : resultLegal (recordDecode f s).result = true := by
  rcases recordDecode_result_cases f s with h | h <;> rw [h] <;> decide

theorem EngineStep.pcLegal {s t : State} (h : EngineStep s t) (hs : pcLegal s.pc = true) : pcLegal t.pc = true := by
  cases h with
  | idle _ | waitGoesOn _ _ _ _ _ _ => exact hs
  | waitEnds w hw _ _ _ =>
    obtain ⟨-, -, -, hf⟩ := waitTable_codes hw
    exact decide_eq_true (BitVec.le_trans hf (by decide))
  | bitShifted _ _ | byteStored _ _ _ _ => rw [afterCommit_pc]; split <;> rfl
  | _ => rfl

theorem EngineStep.resultLegal {s t : State} (h : EngineStep s t) (hs : resultLegal s.result = true) :
    resultLegal t.result = true := by
  cases h with
  | waitFails w _ _ _ _ _ => rcases failCode_cases w.kind with hk | hk <;> simp only [hk] <;> rfl
  | doneAcquire _ _ => rfl
  | doneReadSensor _ _ => exact resultLegal_recordDecode _ _
  | bitShifted _ _ | byteStored _ _ _ _ => rw [afterCommit_result]; exact hs
  | _ => exact hs

theorem EngineStep.codesOk {s t : State} (h : EngineStep s t) (hs : CodesOk s) : CodesOk t := by
  obtain ⟨hcfg, hpc, hresult⟩ := hs
  exact ⟨h.cfg_eq ▸ hcfg, h.pcLegal hpc, h.resultLegal hresult⟩

/-- A step after the start signal that leaves the line alone and does not go back there keeps the line released. -/
theorem lineOk_kept {s t : State} (hs : LineOk s) (hpc : 0x4#4 ≤ s.pc) (hdir : t.dir = s.dir) (hdrv : t.drv = s.drv)
    (ht : t.pc = 0x0#4 ∨ 0x4#4 ≤ t.pc) : LineOk t := by
  have hne {c : BitVec 4} (h : c = 0x0#4 ∨ 0x4#4 ≤ c) : c ≠ StateCode.startLow ∧ c ≠ StateCode.startRelease := by
    constructor <;> rintro rfl <;> revert h <;> decide
  obtain ⟨hs2, hs3⟩ := hne (.inr hpc)
  obtain ⟨ht2, ht3⟩ := hne ht
  obtain ⟨-, -, hreleased⟩ := hs
  exact ⟨fun h => absurd h ht2, fun h => absurd h ht3, fun _ _ => hdir ▸ hdrv ▸ hreleased hs2 hs3⟩

theorem EngineStep.lineOk {s t : State} (h : EngineStep s t) (hs : LineOk s) : LineOk t := by
  cases h with
  | idle _ | waitGoesOn _ _ _ _ _ _ => exact hs
  | startHigh _ => simp [LineOk]
  | startLow _ hd => simp [LineOk, hd]
  | startRelease _ _ => simp [LineOk]
  | waitEnds w hw hp _ _ =>
    obtain ⟨hcode, -, hfollowing, -⟩ := waitTable_codes hw
    exact lineOk_kept hs (hp ▸ hcode) rfl rfl (.inr (BitVec.le_trans (by decide) hfollowing))
  | waitFails w hw hp _ _ _ => exact lineOk_kept hs (hp ▸ (waitTable_codes hw).1) rfl rfl (.inl rfl)
  | sampledHigh hp _ _ | sampledLow hp _ _ | bitTail hp =>
    exact lineOk_kept hs (by simp [hp]) rfl rfl (.inr (by simp))
  | bitShifted hp _ | byteStored hp _ _ _ =>
    refine lineOk_kept hs (by simp [hp]) (by simp) (by simp) (.inr ?_)
    rw [afterCommit_pc]
    split <;> decide
  | doneAcquire hp _ | doneReadSensor hp _ => exact lineOk_kept hs (by simp [hp]) (by simp) (by simp) (.inl rfl)

theorem EngineStep.resultOk {s t : State} (h : EngineStep s t) (hs : ResultOk s) : ResultOk t := by
  have hkeep (hp : s.pc ≠ StateCode.idle) (ht : t.result = s.result) : ResultOk t :=
    fun _ => ht.trans (hs ((busy_iff s).mpr hp))
  cases h with
  | idle _ => exact hs
  | waitEnds w hw hp _ _ | waitGoesOn w hw hp _ _ _ =>
    exact hkeep (waitCode_ne_idle hw hp) rfl
  | waitFails _ _ _ _ _ _ | doneAcquire _ _ | doneReadSensor _ _ => exact fun hb => absurd rfl ((busy_iff _).mp hb)
  | startHigh hp | startLow hp _ | startRelease hp _ | sampledHigh hp _ _ | sampledLow hp _ _ | bitTail hp
  | bitShifted hp _ | byteStored hp _ _ _ => exact hkeep (by simp [hp]) (by simp)

theorem EngineStep.sampleOk {s t : State} (h : EngineStep s t) (hs : SampleOk s) : SampleOk t := by
  cases h with
  | idle _ | waitGoesOn _ _ _ _ _ _ => exact hs
  | waitEnds w hw _ _ _ => fin_cases hw <;> simp [SampleOk]
  | sampledHigh _ _ _ => exact fun _ => rfl
  | bitTail hp => exact fun _ => hs (.inl hp)
  | bitShifted _ _ | byteStored _ _ _ _ =>
    rw [SampleOk, afterCommit_pc]
    split <;> simp
  | _ => exact fun h => absurd h (by simp)

/-! #### The frame buffer -/

theorem shiftIn_lt {acc : Byte} {n : Nat} (b : BitVec 1) (h : acc.toNat < 2 ^ n) :
    (shiftIn acc b).toNat < 2 ^ (n + 1) := by
  rw [shiftIn, BitVec.toNat_or]
  apply Nat.or_lt_two_pow
  · rw [BitVec.toNat_shiftLeft, Nat.shiftLeft_eq, pow_succ]
    exact lt_of_le_of_lt (Nat.mod_le _ _) (by omega)
  · have hb := b.isLt
    rw [BitVec.zeroExtend, BitVec.toNat_setWidth, pow_succ]
    have := Nat.one_le_two_pow (n := n)
    omega

/-- A step from code `c` to code `c'` that shifts nothing in: the clause of `c` covers what the clause of `c'` asks. -/
abbrev nothingReceived (c c' : BitVec 4) : Prop :=
  (StateCode.startHigh ≤ c' → c' ≤ StateCode.waitHsLow → StateCode.startHigh ≤ c ∧ c ≤ StateCode.waitHsLow) ∧
  (StateCode.waitBitHigh ≤ c' → c' ≤ StateCode.bitCommit →
    c = StateCode.waitHsLow ∨ StateCode.waitBitHigh ≤ c ∧ c ≤ StateCode.bitCommit) ∧
  c' ≠ StateCode.done

theorem waitTable_nothingReceived {w : WaitRow} (hw : w ∈ waitTable) : nothingReceived w.code w.following := by
  fin_cases hw <;> decide

theorem nothingReceived_idle (c : BitVec 4) : nothingReceived c StateCode.idle := by simp [nothingReceived]

theorem bufferOk_kept {s t : State} (hs : BufferOk s) (hbidx : t.bidx = s.bidx) (hnbit : t.nbit = s.nbit)
    (hacc : t.acc = s.acc) (hpc : nothingReceived s.pc t.pc) : BufferOk t := by
  obtain ⟨hi, hn, ha, hempty, hplace, -⟩ := hs
  obtain ⟨hstart, hbits, hdone⟩ := hpc
  rw [BufferOk, hbidx, hnbit, hacc]
  refine ⟨hi, hn, ha, fun h1 h2 => ?_, fun h1 h2 => ?_, fun h => absurd h hdone⟩
  · obtain ⟨h1, h2⟩ := hstart h1 h2
    exact hempty h1 h2
  · rcases hbits h1 h2 with hlow | ⟨h1, h2⟩
    · obtain ⟨hi0, -⟩ := hempty (by simp [hlow]) (by simp [hlow])
      rw [hi0]
      decide
    · exact hplace h1 h2

/-- A bit shifted in, the byte not yet full: the byte keeps its place. -/
theorem bufferOk_bitShifted {s : State} (hs : BufferOk s) (hp : s.pc = StateCode.bitCommit) (hn : s.nbit + 1#4 ≠ 8#4) :
    BufferOk (afterCommit { s with acc := shiftIn s.acc s.sbit, nbit := s.nbit + 1#4 }) := by
  obtain ⟨hi, hn7, hacc, -, hplace, -⟩ := hs
  have hi4 : s.bidx ≤ 4#3 := hplace (by simp [hp]) (by simp [hp])
  have hi5 : s.bidx ≠ 5#3 := by rintro h; rw [h] at hi4; exact absurd hi4 (by decide)
  have hsucc : (s.nbit + 1#4).toNat = s.nbit.toNat + 1 := by bv_omega
  rw [afterCommit_nextBit (by exact hi5)]
  refine ⟨hi, ?_, ?_, by simp, fun _ _ => hi4, by simp⟩
  · simp only [enterWait_nbit]
    bv_omega
  · simp only [enterWait_acc, enterWait_nbit, hsucc]
    exact shiftIn_lt s.sbit hacc

/-- A full byte stored: the next byte is empty, and after the fifth the engine is in DONE. -/
theorem bufferOk_byteStored {s : State} {b : FrameBuffer} {v : Byte} (hb : s.buf.store s.bidx v = some b) :
    BufferOk (afterCommit { s with buf := b, bidx := s.bidx + 1#3, acc := 0x00#8, nbit := 0#4 }) := by
  have hi : s.bidx ≤ 4#3 := (store_isSome_iff s.buf s.bidx v).mp (hb ▸ rfl)
  by_cases hlast : s.bidx + 1#3 = 5#3
  · rw [afterCommit_done (by exact hlast)]
    simp [BufferOk, hlast]
  · rw [afterCommit_nextBit (by exact hlast)]
    refine ⟨?_, by simp, by simp, by simp, fun _ _ => ?_, by simp⟩
    · simp only [enterWait_bidx]
      bv_omega
    · simp only [enterWait_bidx]
      bv_omega

theorem EngineStep.bufferOk {s t : State} (h : EngineStep s t) (hs : BufferOk s) : BufferOk t := by
  cases h with
  | idle _ | waitGoesOn _ _ _ _ _ _ => exact hs
  | waitEnds w hw hp _ _ => exact bufferOk_kept hs rfl rfl rfl (hp ▸ waitTable_nothingReceived hw)
  | waitFails _ _ _ _ _ _ | doneAcquire _ _ | doneReadSensor _ _ =>
    exact bufferOk_kept hs (by simp) (by simp) (by simp) (nothingReceived_idle _)
  | startHigh hp | startLow hp _ | startRelease hp _ | sampledHigh hp _ _ | sampledLow hp _ _ | bitTail hp =>
    exact bufferOk_kept hs rfl rfl rfl (by simp [nothingReceived, hp])
  | bitShifted hp hn => exact bufferOk_bitShifted hs hp hn
  | byteStored _ _ b hb => exact bufferOk_byteStored hb

/-! #### The poll counter -/

/-- A legal bound is not used up before the first read (R8, R135). -/
theorem exhausted_zero {b : Config.Bound} (h : boundLegal b = true) : exhausted b 0 = false := by
  cases b with
  | reads n => simpa [exhausted, Nat.pos_iff_ne_zero, Nat.one_le_iff_ne_zero] using (boundLegal_iff _).mp h n rfl
  | unbounded => rfl

theorem pollInRange_zero (p : Config.Params) : pollInRange p 0 = true := by
  unfold pollInRange
  split <;> simp

theorem pollOk_zero {s : State} (hc : configLegal s.cfg = true) (h0 : s.poll = 0) : PollOk s := by
  obtain ⟨-, -, -, hhs, hwait⟩ := (configLegal_iff s.cfg).mp hc
  rw [PollOk, h0]
  exact ⟨pollInRange_zero _, fun _ => hhs, fun _ => exhausted_zero ((boundLegal_iff _).mpr hwait), fun _ _ _ => rfl⟩

/-- A wait in progress has a read left before its bound (R135). -/
theorem PollOk.not_exhausted {s : State} (hs : PollOk s) {w : WaitRow} (hw : w ∈ waitTable) (hp : s.pc = w.code) :
    exhausted (w.bound s.cfg) s.poll = false := by
  obtain ⟨-, hack, hwait, -⟩ := hs
  fin_cases hw
  · simpa [exhausted, WaitRow.bound] using hack hp
  all_goals exact hwait (by simp [boundedWait, hp])

/-- One read more than a count below a wait's bound is still in the range of R23. -/
theorem pollInRange_succ {p : Config.Params} {w : WaitRow} {n : Nat} (h : exhausted (w.bound p) n = false) :
    pollInRange p (n + 1) = true := by
  unfold pollInRange
  split
  next m hm =>
    cases hk : w.kind with
    | noResponse => simp [WaitRow.bound, hk, exhausted] at h ⊢; omega
    | timeout => simp [WaitRow.bound, hk, hm, exhausted] at h ⊢; omega
  next => rfl

/-- A wait that goes on has the rest of its bound left. -/
theorem pollOk_waitGoesOn {s t : State} {w : WaitRow} (hw : w ∈ waitTable) (hp : t.pc = w.code) (hcfg : t.cfg = s.cfg)
    (hpoll : t.poll = s.poll + 1) (hs : exhausted (w.bound s.cfg) s.poll = false)
    (he : exhausted (w.bound s.cfg) (s.poll + 1) = false) : PollOk t := by
  rw [PollOk, hcfg, hpoll, hp]
  refine ⟨pollInRange_succ hs, ?_⟩
  fin_cases hw
  · simpa [boundedWait, exhausted, WaitRow.bound] using he
  all_goals simpa [boundedWait, WaitRow.bound] using he

theorem EngineStep.pollOk {s t : State} (h : EngineStep s t) (hc : configLegal s.cfg = true) (hs : PollOk s) :
    PollOk t := by
  have hzero (hpoll : t.poll = 0) : PollOk t := pollOk_zero (h.cfg_eq ▸ hc) hpoll
  have hother (hb : s.pc ≠ StateCode.idle) (hack : s.pc ≠ StateCode.waitAckLow) (hwait : ¬ boundedWait s.pc) :
      s.poll = 0 := by
    obtain ⟨-, -, -, hs0⟩ := hs
    exact hs0 ((busy_iff s).mpr hb) hack hwait
  cases h with
  | idle _ => exact hs
  | startRelease _ _ | waitEnds _ _ _ _ _ | bitTail _ => exact hzero rfl
  | waitFails w hw hp _ _ _ =>
    exact ⟨pollInRange_succ (hs.not_exhausted hw hp), by simp, by simp [boundedWait], by simp [State.busy]⟩
  | waitGoesOn w hw hp _ _ he => exact pollOk_waitGoesOn (s := s) hw hp rfl rfl (hs.not_exhausted hw hp) he
  | bitShifted hp _ | byteStored hp _ _ _ =>
    have h0 : s.poll = 0 := hother (by simp [hp]) (by simp [hp]) (by simp [hp, boundedWait])
    refine hzero ?_
    unfold afterCommit
    split
    · exact h0
    · rfl
  | startHigh hp | startLow hp _ | sampledHigh hp _ _ | sampledLow hp _ _ | doneAcquire hp _ | doneReadSensor hp _ =>
    have h0 : s.poll = 0 := hother (by simp [hp]) (by simp [hp]) (by simp [hp, boundedWait])
    exact hzero (by simpa using h0)

/-! #### Every turn keeps the invariant -/

theorem EngineStep.safeState {s t : State} (h : EngineStep s t) (hs : SafeState s) : SafeState t := by
  obtain ⟨hcodes, hline, hresult, hbuffer, hsample, hpoll⟩ := hs
  exact ⟨h.codesOk hcodes, h.lineOk hline, h.resultOk hresult, h.bufferOk hbuffer, h.sampleOk hsample,
    h.pollOk hcodes.1 hpoll⟩

/-- Acceptance on an idle block: everything received before is cleared, and the line is still released (R102, R104). -/
theorem safeState_acceptTransaction {s : State} (m : BitVec 1) (hp : s.pc = StateCode.idle) (hs : SafeState s) :
    SafeState (acceptTransaction m s) := by
  obtain ⟨⟨hcfg, -, -⟩, hline, -, -, -, -⟩ := hs
  obtain ⟨hd, hv⟩ := hline.2.2 (by simp [hp]) (by simp [hp])
  exact ⟨⟨hcfg, rfl, rfl⟩, by simp [LineOk, hd, hv], fun _ => rfl, by simp [BufferOk], by simp [SampleOk],
    pollOk_zero hcfg rfl⟩

/-- DECODE on an idle block writes RESULT, which is bound to NONE only while BUSY. -/
theorem safeState_recordDecode {s : State} (f : Frame) (hp : s.pc = StateCode.idle) (hs : SafeState s) :
    SafeState (recordDecode f s) := by
  obtain ⟨⟨hcfg, hpc, -⟩, hline, -, hbuffer, hsample, hpoll⟩ := hs
  refine ⟨⟨?_, ?_, resultLegal_recordDecode f s⟩, ?_, ?_, ?_, ?_, ?_⟩
  · simpa using hcfg
  · simpa using hpc
  · simpa [LineOk] using hline
  · simp [ResultOk, State.busy, hp]
  · simpa [BufferOk] using hbuffer
  · simpa [SampleOk] using hsample
  · simpa [PollOk, State.busy] using hpoll

theorem HostStep.safeState {base : Nat} {a : Access} {s t : State} (h : HostStep base a s t) (hs : SafeState s) :
    SafeState t := by
  cases h with
  | replied _ | ignored | frameLoWritten _ _ _ | frameHiWritten _ _ _ => exact hs
  | accepted _ m hp _ _ => exact safeState_acceptTransaction m hp hs
  | decoded _ hp _ _ => exact safeState_recordDecode s.frame hp hs

theorem safeState_resetBlock {s : State} (hc : configLegal s.cfg = true) : SafeState (resetBlock s) :=
  ⟨⟨hc, rfl, rfl⟩, by simp [LineOk], fun _ => rfl, by simp [BufferOk], by simp [SampleOk], pollOk_zero hc rfl⟩

/-- Settles O4: the invariant reads neither the turns nor `rdata`, so each kind of turn is left with what it runs. -/
theorem invariantKeptByEveryStep : Obligations.InvariantKeptByEveryStep := by
  intro s t hs h
  obtain ⟨⟨hcfg, -, -⟩, ⟨-, he⟩ | ⟨a, rest, -, ha⟩ | ⟨rest, -, rfl⟩ | ⟨rest, -, rfl⟩⟩ := step_cases h
  · exact he.safeState hs
  · exact ha.safeState hs
  · exact hs
  · exact safeState_resetBlock hcfg

/-- Settles O3: the reset state is what a reset turn gives from the default configuration. -/
theorem resetSatisfiesTheInvariant : Obligations.ResetSatisfiesTheInvariant :=
  safeState_resetBlock (s := State.reset) rfl

/-! ### What a host access leaves alone, and who writes which register -/

theorem step_access {s t : State} {a : Access} {rest : List Turn} (ht : s.turns = .access a :: rest)
    (h : step s = .next t) : HostStep s.cfg.regBase a { s with turns := rest } t := by
  obtain ⟨-, ⟨he, -⟩ | ⟨a', rest', ht', ha⟩ | ⟨rest', ht', -⟩ | ⟨rest', ht', -⟩⟩ := step_cases h
  · simp [engineTurn, ht] at he
  · rw [ht] at ht'
    cases ht'
    exact ha
  · simp [ht] at ht'
  · simp [ht] at ht'

/-- Settles O24, by what the access did: only an accepted ACQUIRE or READ_SENSOR writes the engine's registers. -/
theorem hostAccessLeavesTheEngineAlone : Obligations.HostAccessLeavesTheEngineAlone := by
  intro s t a rest ht h
  cases step_access ht h with
  | accepted v m hp ha hc =>
    refine ⟨rfl, rfl, rfl, rfl, rfl, rfl, rfl, .inr ⟨v, hp, ha, ?_⟩⟩
    rcases hc with ⟨hv, rfl⟩ | ⟨hv, rfl⟩
    · have hv : v.extractLsb' 0 8 = 0x01#8 := hv
      simp [hv]
    · have hv : v.extractLsb' 0 8 = 0x03#8 := hv
      simp [hv]
  | _ => simp

theorem resetTurn_of_turns {s : State} {rest : List Turn} (ht : s.turns = .reset :: rest) : resetTurn s := by
  rw [resetTurn, ht]
  rfl

/-- `recordDecode` writes READING only on a match: `Decode(f)` gave a reading, and RESULT is SUCCESS (R103, R144). -/
theorem recordDecode_reading_ne {f : Frame} {s : State} (h : (recordDecode f s).reading ≠ s.reading) :
    ∃ r, decodeFrame f = .ok r ∧ (recordDecode f s).reading = readingWord r ∧ (recordDecode f s).result = 1#3 := by
  cases hf : decodeFrame f with
  | ok r => exact ⟨r, rfl, by simp [recordDecode_ok s hf]⟩
  | checksumMismatch => simp [recordDecode_mismatch s hf] at h

/-- Settles O38: DONE in READ_SENSOR mode and DECODE are the two steps with a decode. -/
theorem readingChangesOnlyByADecode : Obligations.ReadingChangesOnlyByADecode := by
  intro s t h hne
  obtain ⟨-, ⟨-, he⟩ | ⟨a, rest, -, ha⟩ | ⟨rest, -, rfl⟩ | ⟨rest, ht, rfl⟩⟩ := step_cases h
  · left
    cases he with
    | doneReadSensor _ _ =>
      obtain ⟨r, hr, hword, hresult⟩ := recordDecode_reading_ne hne
      exact ⟨r, by simpa using hr, hword, hresult, rfl⟩
    | _ => simp at hne
  · left
    cases ha with
    | decoded _ hp _ _ =>
      obtain ⟨r, hr, hword, hresult⟩ := recordDecode_reading_ne hne
      exact ⟨r, by simpa using hr, hword, hresult, by simpa using hp⟩
    | _ => simp at hne
  · exact absurd rfl hne
  · exact .inr (resetTurn_of_turns ht)

/-- The engine writes RESULT only where it ends a transaction, with a code that is not NONE (R27, R144, R213). -/
theorem EngineStep.result_eq_or_ended {s t : State} (h : EngineStep s t) :
    t.result = s.result ∨ s.pc ≠ StateCode.idle ∧ t.pc = StateCode.idle ∧ t.result ≠ ResultCode.none := by
  cases h with
  | waitFails w hw hp _ _ _ =>
    refine .inr ⟨waitCode_ne_idle hw hp, rfl, ?_⟩
    rcases failCode_cases w.kind with hk | hk <;> simp [hk]
  | doneAcquire hp _ => exact .inr ⟨by simp [hp], rfl, by simp⟩
  | doneReadSensor hp _ =>
    refine .inr ⟨by simp [hp], rfl, ?_⟩
    rcases recordDecode_result_cases s.buf.frame { s with frame := s.buf.frame } with hr | hr <;> simp [hr]
  | _ => exact .inl (by simp)

/-- A write of CTRL at `REG_BASE` is the row WR CTRL (R28, R58). -/
theorem hostTurn_wrCtrl {s : State} {v : Word} {rest : List Turn}
    (ht : s.turns = .access (.memWrite s.cfg.regBase 4 v) :: rest) : hostTurn s (.wrCtrl v) :=
  ⟨_, by rw [ht]; rfl, decodeAccess_memWrite s.cfg.regBase Offset.ctrl 4 v⟩

/-- Settles O39, by the kind of turn. -/
theorem resultWrittenOnlyAtAcceptanceAndEnd : Obligations.ResultWrittenOnlyAtAcceptanceAndEnd := by
  intro s t h hne
  obtain ⟨-, ⟨hturn, he⟩ | ⟨a, rest, ht, ha⟩ | ⟨rest, -, rfl⟩ | ⟨rest, ht, rfl⟩⟩ := step_cases h
  · obtain ⟨hp, hend, hr⟩ := he.result_eq_or_ended.resolve_left hne
    exact .inr (.inl ⟨hturn, hp, hend, hr⟩)
  · cases ha with
    | accepted _ m hp _ _ => exact .inl ⟨hp, rfl, rfl⟩
    | decoded v hp ha hc =>
      refine .inr (.inr (.inl ⟨hp, by simpa using hp, ⟨v, hc, hostTurn_wrCtrl (ha ▸ ht)⟩, ?_⟩))
      exact recordDecode_result_cases _ _
    | _ => exact absurd rfl hne
  · exact absurd rfl hne
  · exact .inr (.inr (.inr ⟨resetTurn_of_turns ht, rfl⟩))

/-! The buffer, `sbit` and the line each have their own writers among the engine's states (R24, R25, R35). -/

theorem EngineStep.buf_eq_or {s t : State} (h : EngineStep s t) : t.buf = s.buf ∨ s.pc = StateCode.bitCommit := by
  cases h with
  | byteStored hp _ _ _ => exact .inr hp
  | _ => exact .inl (by simp)

theorem EngineStep.sbit_eq_or {s t : State} (h : EngineStep s t) : t.sbit = s.sbit ∨ s.pc = StateCode.bitSample := by
  cases h with
  | sampledHigh hp _ _ | sampledLow hp _ _ => exact .inr hp
  | _ => exact .inl (by simp)

theorem EngineStep.dir_eq_or {s t : State} (h : EngineStep s t) :
    t.dir = s.dir ∨ Prim.setDir t.dir ∈ t.trace ∧ (s.pc = StateCode.startHigh ∨ s.pc = StateCode.startRelease) := by
  cases h with
  | startHigh hp => exact .inr ⟨by simp, .inl hp⟩
  | startRelease hp _ => exact .inr ⟨by simp, .inr hp⟩
  | _ => exact .inl (by simp)

theorem EngineStep.drv_eq_or {s t : State} (h : EngineStep s t) :
    t.drv = s.drv ∨
      Prim.write t.drv ∈ t.trace ∧ StateCode.startHigh ≤ s.pc ∧ s.pc ≤ StateCode.startRelease := by
  cases h with
  | startHigh hp | startLow hp _ | startRelease hp _ => exact .inr ⟨by simp, by simp [hp], by simp [hp]⟩
  | _ => exact .inl (by simp)

/-- Settles O40: an engine step by its own writers' lemmas, a host access by acceptance alone. -/
theorem internalRegistersHaveTheirOwnWriters : Obligations.InternalRegistersHaveTheirOwnWriters := by
  intro s t h hreset
  obtain ⟨-, ⟨hturn, he⟩ | ⟨a, rest, -, ha⟩ | ⟨rest, -, rfl⟩ | ⟨rest, ht, -⟩⟩ := step_cases h
  · refine ⟨fun hne => absurd he.mode_eq hne, fun hne => ?_, fun hne => ?_, fun hne => ?_, fun hne => ?_⟩
    · exact .inl ⟨hturn, he.buf_eq_or.resolve_left hne⟩
    · exact .inl ⟨hturn, he.sbit_eq_or.resolve_left hne⟩
    · exact ⟨hturn, he.dir_eq_or.resolve_left hne⟩
    · exact ⟨hturn, he.drv_eq_or.resolve_left hne⟩
  · cases ha with
    | accepted _ m hp _ _ =>
      exact ⟨fun _ => ⟨hp, rfl⟩, fun _ => .inr ⟨hp, rfl, rfl⟩, fun _ => .inr ⟨hp, rfl, rfl⟩, by simp, by simp⟩
    | _ => simp
  · simp
  · exact absurd (resetTurn_of_turns ht) hreset

/-! ### Reset values, and the layout of READING and FRAME -/

/-- Settles O1, a closed fact about the one reset state. -/
theorem resetGivesTheListedValues : Obligations.ResetGivesTheListedValues := by
  unfold Obligations.ResetGivesTheListedValues
  decide

/-- Settles O55: the two fields are read back from their halves of the word, each within 16 bits. -/
theorem readingRegisterLayout : Obligations.ReadingRegisterLayout := by
  intro h t hh hlo hhi
  have hhum : ((readingWord { temperatureTenths := t, humidityTenths := h }).extractLsb' 0 16).toNat = h := by
    rw [readingWord, BitVec.extractLsb'_append_eq_right, BitVec.toNat_ofNat]
    exact Nat.mod_eq_of_lt (by dsimp only; omega)
  have htemp : ((readingWord { temperatureTenths := t, humidityTenths := h }).extractLsb' 16 16).toInt = t := by
    rw [readingWord, BitVec.extractLsb'_append_eq_left, BitVec.toInt_ofInt]
    exact Int.bmod_eq_of_le (by dsimp only; omega) (by dsimp only; omega)
  exact ⟨hhum, htemp, by rw [readingOfWord, hhum, htemp]⟩

/-- FRAME after both writes, whichever came first (R31, R32, R108). -/
theorem withFrameLo_withFrameHi (f : Frame) (hi lo : Word) :
    withFrameLo (withFrameHi f hi) lo = hi.extractLsb' 0 8 ++ lo := by
  rw [withFrameLo, withFrameHi, BitVec.extractLsb'_append_eq_left]

theorem withFrameHi_withFrameLo (f : Frame) (hi lo : Word) :
    withFrameHi (withFrameLo f lo) hi = hi.extractLsb' 0 8 ++ lo := by
  rw [withFrameLo, withFrameHi, BitVec.extractLsb'_append_eq_right]

/-- A write of either half on an idle block (R108). -/
theorem exec_wrFrameLo_idle {s : State} (v : Word) (hp : s.pc = StateCode.idle) :
    exec (.wrFrameLo v) s = .next { s with frame := withFrameLo s.frame v } :=
  whenIdle_idle _ hp

theorem exec_wrFrameHi_idle {s : State} (v : Word) (hp : s.pc = StateCode.idle) :
    exec (.wrFrameHi v) s = .next { s with frame := withFrameHi s.frame v } :=
  whenIdle_idle _ hp

/-- The low byte of a word, read back as a word, is the word with bits 31:8 cleared (R32). -/
theorem zeroExtend_lowByte (v : Word) : (v.extractLsb' 0 8).zeroExtend 32 = v &&& 0x000000FF#32 := by
  apply BitVec.eq_of_toNat_eq
  have hmask : v.toNat &&& 255 = v.toNat % 256 := Nat.and_two_pow_sub_one_eq_mod v.toNat 8
  simp only [BitVec.zeroExtend, BitVec.toNat_setWidth, BitVec.extractLsb'_toNat, BitVec.toNat_and, BitVec.toNat_ofNat]
  simp only [hmask, Nat.shiftRight_zero, Nat.reducePow, Nat.reduceMod]
  omega

/-- Settles O23: both orders of the writes give one FRAME, and the two reads are its halves. -/
theorem frameReadsBackWhatWasWritten : Obligations.FrameReadsBackWhatWasWritten := by
  intro s t u hi lo hp hwrites
  have hframe : u.frame = hi.extractLsb' 0 8 ++ lo := by
    rcases hwrites with ⟨h1, h2⟩ | ⟨h1, h2⟩
    · rw [exec_wrFrameHi_idle hi hp] at h1
      cases h1
      rw [exec_wrFrameLo_idle lo (by exact hp)] at h2
      cases h2
      exact withFrameLo_withFrameHi s.frame hi lo
    · rw [exec_wrFrameLo_idle lo hp] at h1
      cases h1
      rw [exec_wrFrameHi_idle hi (by exact hp)] at h2
      cases h2
      exact withFrameHi_withFrameLo s.frame hi lo
  refine ⟨hframe, ?_, ?_⟩
  · show Host.Outcome.next { u with rdata := u.frameLoWord } = _
    rw [State.frameLoWord, hframe, BitVec.extractLsb'_append_eq_right]
  · show Host.Outcome.next { u with rdata := u.frameHiWord } = _
    rw [State.frameHiWord, hframe, BitVec.extractLsb'_append_eq_left, zeroExtend_lowByte]

/-! ### A transaction's outcome: runs of the engine and two blocks side by side -/

theorem exec_eq_of_pollOnce {w : WaitRow} {s : State} (hw : w ∈ waitTable) (hp : s.pc = w.code) {t : State}
    (h : pollOnce w.target (w.bound s.cfg) w.kind w.following s = .next t) :
    ∃ i, decode (.state s.pc) = .ok i ∧ exec i s = .next t :=
  ⟨w.instr, hp ▸ decode_waitCode hw, (exec_wait hw s).trans h⟩

/-- Each listed step is one the engine takes: with engineStep_of_exec, the list is exact. -/
theorem EngineStep.exec_eq {s t : State} (h : EngineStep s t) :
    ∃ i, decode (.state s.pc) = .ok i ∧ exec i s = .next t := by
  cases h with
  | idle hp => exact ⟨.idle, by rw [hp]; rfl, rfl⟩
  | startHigh hp => exact ⟨.startHigh, by rw [hp]; rfl, rfl⟩
  | startLow hp hd =>
    refine ⟨.startLow, by rw [hp]; rfl, ?_⟩
    rw [exec, execStartLow, lineWrite_output _ _ hd]
    rfl
  | startRelease hp hd =>
    refine ⟨.startRelease, by rw [hp]; rfl, ?_⟩
    rw [exec, execStartRelease, lineWrite_output _ _ hd]
    rfl
  | waitEnds w hw hp hd hl =>
    refine exec_eq_of_pollOnce hw hp ?_
    rw [pollOnce, lineRead_input _ hd]
    exact if_pos hl
  | waitFails w hw hp hd hl he =>
    refine exec_eq_of_pollOnce hw hp ?_
    rw [pollOnce, lineRead_input _ hd]
    exact (if_neg hl).trans (if_pos he)
  | waitGoesOn w hw hp hd hl he =>
    refine exec_eq_of_pollOnce hw hp ?_
    rw [pollOnce, lineRead_input _ hd]
    exact (if_neg hl).trans (if_neg (by simp [he]))
  | sampledHigh hp hd hl => exact ⟨.bitSample, by rw [hp]; rfl, execBitSample_high hd hl⟩
  | sampledLow hp hd hl => exact ⟨.bitSample, by rw [hp]; rfl, execBitSample_low hd hl⟩
  | bitTail hp => exact ⟨.bitTail, by rw [hp]; rfl, rfl⟩
  | bitShifted hp hn => exact ⟨.bitCommit, by rw [hp]; rfl, if_neg hn⟩
  | byteStored hp hn b hb =>
    refine ⟨.bitCommit, by rw [hp]; rfl, (if_pos hn).trans ?_⟩
    rw [hb]
  | doneAcquire hp hm => exact ⟨.done, by rw [hp]; rfl, by simp [exec, execDone, hm, goTo]⟩
  | doneReadSensor hp hm => exact ⟨.done, by rw [hp]; rfl, by simp [exec, execDone, hm]⟩

/-- With no turn listed, the steps of a well-coded state are the engine's. -/
theorem step_eq_next_iff {s t : State} (hc : CodesOk s) (ht : s.turns = []) : step s = .next t ↔ EngineStep s t := by
  constructor
  · intro h
    have hs : { s with turns := s.turns.tail } = s := by rw [ht, List.tail_nil, ← ht]
    obtain ⟨-, ⟨-, he⟩ | ⟨_, _, h', -⟩ | ⟨_, h', -⟩ | ⟨_, h', -⟩⟩ := step_cases h
    · exact hs ▸ he
    all_goals simp [ht] at h'
  · intro h
    obtain ⟨i, hd, hx⟩ := h.exec_eq
    rw [step_of_fetch_instr hc (fetch_nil ht hd), hx]

theorem reaches_zero_iff {s t : State} : reaches 0 s t ↔ s = t := by
  show Host.Outcome.next s = .next t ↔ _
  simp

theorem run_succ_next_iff (M : Host.Core) {k : Nat} {s t : M.State} :
    M.run (k + 1) s = .next t ↔ ∃ u, M.step s = .next u ∧ M.run k u = .next t := by
  rw [Host.Core.run]
  cases M.step s <;> simp

theorem reaches_succ_iff {k : Nat} {s t : State} : reaches (k + 1) s t ↔ ∃ u, step s = .next u ∧ reaches k u t :=
  run_succ_next_iff Sys2Proof.core

/-- What each engine step keeps holds after every run with no host turn. -/
theorem reaches_keeps {P : State → Prop} (hstep : ∀ {s t}, EngineStep s t → P s → P t) {k : Nat} {s t : State}
    (hc : CodesOk s) (ht : s.turns = []) (h : reaches k s t) (hs : P s) : P t := by
  induction k generalizing s with
  | zero => exact reaches_zero_iff.mp h ▸ hs
  | succ k ih =>
    obtain ⟨u, hu, h⟩ := reaches_succ_iff.mp h
    have hu := (step_eq_next_iff hc ht).mp hu
    exact ih (hu.codesOk hc) (hu.turns_eq.trans ht) h (hstep hu hs)

/-- While `a` is BUSY, and after a failure, FRAME and READING are still those of `s` (R213): a transaction publishes
nothing before DONE. -/
def keepsPublished (s a : State) : Prop :=
  a.pc ≠ StateCode.idle ∨ a.result = ResultCode.noResponse ∨ a.result = ResultCode.timeout →
    a.frame = s.frame ∧ a.reading = s.reading

theorem EngineStep.keepsPublished {s a t : State} (h : EngineStep a t) (ha : keepsPublished s a) :
    keepsPublished s t := by
  have hbusy (hp : a.pc ≠ StateCode.idle) (hf : t.frame = a.frame) (hr : t.reading = a.reading) :
      Machine.keepsPublished s t := by
    intro _
    rw [hf, hr]
    exact ha (.inl hp)
  cases h with
  | idle _ => exact ha
  | waitEnds w hw hp _ _ | waitFails w hw hp _ _ _ | waitGoesOn w hw hp _ _ _ =>
    exact hbusy (waitCode_ne_idle hw hp) rfl rfl
  | doneAcquire _ _ => simp [Machine.keepsPublished]
  | doneReadSensor _ _ =>
    rcases recordDecode_result_cases a.buf.frame { a with frame := a.buf.frame } with hr | hr <;>
      simp [Machine.keepsPublished, hr]
  | startHigh hp | startLow hp _ | startRelease hp _ | sampledHigh hp _ _ | sampledLow hp _ _ | bitTail hp
  | bitShifted hp _ | byteStored hp _ _ _ => exact hbusy (by simp [hp]) (by simp) (by simp)

/-- The engine of `a`, with the line, the published registers and the records of `o`. -/
def State.engineIn (a o : State) : State :=
  { a with dir := o.dir, drv := o.drv, frame := o.frame, reading := o.reading, trace := o.trace, rdata := o.rdata }

/-- Two blocks in the same transaction on the same levels: the engines agree, the lines agree once the start signal has
set them, and what the transaction has published at its end agrees. -/
structure SameTransaction (a b : State) : Prop where
  engine : ∃ o, b = a.engineIn o
  line : a.pc ≠ StateCode.startHigh → b.dir = a.dir ∧ b.drv = a.drv
  frame : a.pc = StateCode.idle →
    a.result = ResultCode.success ∨ a.result = ResultCode.checksumMismatch → b.frame = a.frame
  reading : a.pc = StateCode.idle → a.mode = 1#1 → a.result = ResultCode.success → b.reading = a.reading

theorem sameTransaction_busy {t u : State} (h : u = t.engineIn u) (hline : u.dir = t.dir ∧ u.drv = t.drv)
    (ht : t.pc ≠ StateCode.idle) : SameTransaction t u :=
  ⟨⟨u, h⟩, fun _ => hline, fun h => absurd h ht, fun h => absurd h ht⟩

theorem afterCommit_engineIn (a o : State) : afterCommit (a.engineIn o) = (afterCommit a).engineIn o := by
  by_cases h : a.bidx = 5#3
  · rw [afterCommit_done h, afterCommit_done (by exact h)]
    rfl
  · rw [afterCommit_nextBit h, afterCommit_nextBit (by exact h)]
    rfl

theorem sameTransaction_afterCommit {a o : State} (hline : o.dir = a.dir ∧ o.drv = a.drv) :
    SameTransaction (afterCommit a) (afterCommit (a.engineIn o)) := by
  rw [afterCommit_engineIn]
  refine sameTransaction_busy rfl (by simpa [State.engineIn] using hline) ?_
  rw [afterCommit_pc]
  split <;> decide

/-- DONE in READ_SENSOR mode publishes one frame, and so one reading, in both blocks (R144). -/
theorem sameTransaction_recordDecode {a o : State} {f : Frame} (hline : o.dir = a.dir ∧ o.drv = a.drv) :
    SameTransaction (goTo StateCode.idle (recordDecode f { a with frame := f }))
      (goTo StateCode.idle (recordDecode f { a.engineIn o with frame := f })) := by
  refine ⟨?_, by simpa [State.engineIn] using hline, by simp, ?_⟩
  · cases hf : decodeFrame f with
    | ok r =>
      rw [recordDecode_ok _ hf, recordDecode_ok _ hf]
      exact ⟨{ o with frame := f, reading := readingWord r }, rfl⟩
    | checksumMismatch =>
      rw [recordDecode_mismatch _ hf, recordDecode_mismatch _ hf]
      exact ⟨{ o with frame := f }, rfl⟩
  · cases hf : decodeFrame f with
    | ok r => simp [recordDecode_ok _ hf]
    | checksumMismatch => simp [recordDecode_mismatch _ hf]

theorem EngineStep.simulated {a b t : State} (h : EngineStep a t) (hab : SameTransaction a b) :
    ∃ u, EngineStep b u ∧ SameTransaction t u := by
  obtain ⟨⟨o, rfl⟩, hline, hframe, hreading⟩ := hab
  cases h with
  | idle hp => exact ⟨_, .idle hp, ⟨o, rfl⟩, hline, hframe, hreading⟩
  | startHigh hp => exact ⟨_, .startHigh hp, sameTransaction_busy rfl ⟨rfl, rfl⟩ (by simp)⟩
  | startLow hp hd =>
    obtain ⟨hdir, -⟩ := hline (by simp [hp])
    exact ⟨_, .startLow hp (hdir.trans hd), sameTransaction_busy rfl ⟨hdir, rfl⟩ (by simp)⟩
  | startRelease hp hd =>
    obtain ⟨hdir, -⟩ := hline (by simp [hp])
    exact ⟨_, .startRelease hp (hdir.trans hd), sameTransaction_busy rfl ⟨rfl, rfl⟩ (by simp)⟩
  | waitEnds w hw hp hd hl =>
    have hsame := hline (waitCode_ne_startHigh hw hp)
    exact ⟨_, .waitEnds w hw hp (hsame.1.trans hd) hl, sameTransaction_busy rfl hsame (waitFollowing_ne_idle hw)⟩
  | waitFails w hw hp hd hl he =>
    have hsame := hline (waitCode_ne_startHigh hw hp)
    refine ⟨_, .waitFails w hw hp (hsame.1.trans hd) hl he, ⟨_, rfl⟩, fun _ => hsame, fun _ hr => ?_, fun _ _ hr => ?_⟩
    · rcases failCode_cases w.kind with hk | hk <;> simp [hk] at hr
    · rcases failCode_cases w.kind with hk | hk <;> simp [hk] at hr
  | waitGoesOn w hw hp hd hl he =>
    have hsame := hline (waitCode_ne_startHigh hw hp)
    exact ⟨_, .waitGoesOn w hw hp (hsame.1.trans hd) hl he, sameTransaction_busy rfl hsame (waitCode_ne_idle hw hp)⟩
  | sampledHigh hp hd hl =>
    have hsame := hline (by simp [hp])
    exact ⟨_, .sampledHigh hp (hsame.1.trans hd) hl, sameTransaction_busy rfl hsame (by simp)⟩
  | sampledLow hp hd hl =>
    have hsame := hline (by simp [hp])
    exact ⟨_, .sampledLow hp (hsame.1.trans hd) hl, sameTransaction_busy rfl hsame (by simp)⟩
  | bitTail hp => exact ⟨_, .bitTail hp, sameTransaction_busy rfl (hline (by simp [hp])) (by simp)⟩
  | bitShifted hp hn =>
    exact ⟨_, .bitShifted hp hn, sameTransaction_afterCommit (hline (by simp [hp]))⟩
  | byteStored hp hn b hb =>
    exact ⟨_, .byteStored (s := a.engineIn o) hp hn b hb, sameTransaction_afterCommit (hline (by simp [hp]))⟩
  | doneAcquire hp hm =>
    refine ⟨_, .doneAcquire hp hm, ⟨{ o with frame := a.buf.frame }, rfl⟩, fun _ => hline (by simp [hp]),
      fun _ _ => rfl, fun _ h1 => ?_⟩
    exact absurd (hm.symm.trans h1) (by decide)
  | doneReadSensor hp hm =>
    exact ⟨_, .doneReadSensor hp hm, sameTransaction_recordDecode (hline (by simp [hp]))⟩

/-- A run of one block is matched step by step by the other. -/
theorem SameTransaction.reaches {a b t : State} {k : Nat} (hab : SameTransaction a b) (hc : CodesOk a)
    (ht : a.turns = []) (h : reaches k a t) : ∃ u, Machine.reaches k b u ∧ SameTransaction t u := by
  induction k generalizing a b with
  | zero => exact ⟨b, reaches_zero_iff.mpr rfl, reaches_zero_iff.mp h ▸ hab⟩
  | succ k ih =>
    obtain ⟨a', ha, h⟩ := reaches_succ_iff.mp h
    have ha := (step_eq_next_iff hc ht).mp ha
    obtain ⟨b', hb, hab'⟩ := ha.simulated hab
    obtain ⟨u, hu, hsame⟩ := ih hab' (ha.codesOk hc) (ha.turns_eq.trans ht) h
    obtain ⟨⟨o, rfl⟩, -, -, -⟩ := hab
    exact ⟨u, reaches_succ_iff.mpr ⟨b', (step_eq_next_iff (s := a.engineIn o) hc ht).mpr hb, hu⟩, hsame⟩

theorem codesOk_acceptTransaction {s : State} (m : BitVec 1) (hc : configLegal s.cfg = true) :
    CodesOk (acceptTransaction m s) :=
  ⟨hc, rfl, rfl⟩

/-- Acceptance brings two blocks with the same configuration and the same levels to come into one transaction (R102). -/
theorem sameTransaction_acceptTransaction {s₁ s₂ : State} (m : BitVec 1) (hcfg : s₁.cfg = s₂.cfg)
    (hturns : s₁.turns = s₂.turns) (hscript : s₁.script = s₂.script) (hdraws : s₁.draws = s₂.draws) :
    SameTransaction (acceptTransaction m s₁) (acceptTransaction m s₂) := by
  refine ⟨⟨acceptTransaction m s₂, ?_⟩, by simp, by simp, by simp⟩
  simp [State.engineIn, acceptTransaction, hcfg, hturns, hscript, hdraws]

/-- A transaction that failed has published nothing (R213). -/
theorem failed_keepsPublished {s t : State} {m : BitVec 1} {k : Nat} (hc : configLegal s.cfg = true)
    (hturns : s.turns = []) (h : reaches k (acceptTransaction m s) t) (hr : t.result = 2#3 ∨ t.result = 3#3) :
    t.frame = s.frame ∧ t.reading = s.reading :=
  reaches_keeps (P := keepsPublished s) EngineStep.keepsPublished (codesOk_acceptTransaction m hc) hturns h
    (fun _ => ⟨rfl, rfl⟩) (.inr hr)

/-- Acceptance clears every internal register (R41, R102). -/
theorem exec_start_cases {s t : State} (hp : s.pc = StateCode.idle)
    (h : exec .acquire s = .next t ∨ exec .readSensor s = .next t) : ∃ m, t = acceptTransaction m s := by
  rcases h with h | h
  · cases (whenIdle_idle _ hp).symm.trans h
    exact ⟨0#1, rfl⟩
  · cases (whenIdle_idle _ hp).symm.trans h
    exact ⟨1#1, rfl⟩

/-- Settles O48: acceptance clears the internal registers, and from there the two blocks run side by side. -/
theorem outcomeDependsOnParametersAndLevels : Obligations.OutcomeDependsOnParametersAndLevels := by
  constructor
  · intro s t hp h
    obtain ⟨m, rfl⟩ := exec_start_cases hp h
    exact ⟨rfl, rfl, rfl, rfl, rfl, rfl, rfl, rfl, rfl, rfl⟩
  · intro s₁ s₂ t₁ m k hc hcfg _ _ hturns₁ hturns₂ hscript hdraws h₁ hend
    have hstart := sameTransaction_acceptTransaction m hcfg (hturns₁.trans hturns₂.symm) hscript hdraws
    obtain ⟨t₂, h₂, hsame⟩ := hstart.reaches (codesOk_acceptTransaction m hc) hturns₁ h₁
    have hmode : t₁.mode = m :=
      reaches_keeps (P := fun t => t.mode = m) (fun he hm => he.mode_eq.trans hm) (codesOk_acceptTransaction m hc)
        hturns₁ h₁ rfl
    obtain ⟨⟨o, rfl⟩, -, hframe, hreading⟩ := hsame
    refine ⟨_, h₂, hend, rfl, rfl, rfl, hframe hend, fun hm => hreading hend (hmode.trans hm), fun hr => ?_⟩
    obtain ⟨hf₁, hr₁⟩ := failed_keepsPublished hc hturns₁ h₁ hr
    obtain ⟨hf₂, hr₂⟩ := failed_keepsPublished (hcfg ▸ hc) hturns₂ h₂ hr
    exact ⟨hf₁, hf₂, hr₁, hr₂⟩

end Sys2Proof.Machine
end

section
/-! PROOFS, family 20_memory.md: the register window (R54, R64), the parameters (R65) and progress (R148, R214). -/

namespace Sys2Proof.Machine

/-! ### The parameters -/

theorem HostStep.cfg_eq {base : Nat} {a : Access} {s t : State} (h : HostStep base a s t) : t.cfg = s.cfg := by
  cases h <;> simp

/-- Settles O42, by the kind of turn. -/
theorem parametersNeverChange : Obligations.ParametersNeverChange := by
  intro s t h
  obtain ⟨-, ⟨-, he⟩ | ⟨a, rest, -, ha⟩ | ⟨rest, -, rfl⟩ | ⟨rest, -, rfl⟩⟩ := step_cases h
  · exact he.cfg_eq
  · exact ha.cfg_eq
  · rfl
  · rfl

/-! ### The accesses of the window -/

theorem checkAccess_error_ne {off width : Nat} {r : Reject} (h : checkAccess off width = .error r) :
    r ≠ .reservedStateCode := by
  rintro rfl
  unfold checkAccess at h
  repeat' split at h
  all_goals cases h

/-- An access is rejected for a defect of its own, never for a state code (R54). -/
theorem decodeAccess_error_ne {base : Nat} {a : Access} {r : Reject} (h : decodeAccess base a = .error r) :
    r ≠ .reservedStateCode := by
  cases a with
  | memRead addr _ | memWrite addr _ _ =>
    by_cases hb : addr < base
    · rintro rfl
      simp [decodeAccess, accessCode, hb] at h
    · obtain ⟨off, rfl⟩ := Nat.exists_eq_add_of_le (Nat.le_of_not_lt hb)
      simp only [decodeAccess_memRead, decodeAccess_memWrite, decode] at h
      split at h
      next => cases h
      next hcheck => cases h; exact checkAccess_error_ne hcheck

/-- With decodeAccess_ok: the accesses that decode are exactly those of R54. -/
theorem decodeAccess_ok_iff (base : Nat) (a : Access) :
    (∃ i, decodeAccess base a = .ok i) ↔
      ∃ off, definedOffset off ∧ (a = .memRead (base + off) 4 ∨ ∃ v, a = .memWrite (base + off) 4 v) := by
  constructor
  · rintro ⟨i, hd⟩
    obtain ⟨off, ho, ⟨ha, -⟩ | ⟨v, ha, -⟩⟩ := decodeAccess_ok hd
    · exact ⟨off, ho, .inl ha⟩
    · exact ⟨off, ho, .inr ⟨v, ha⟩⟩
  · rintro ⟨off, ⟨h4, hle⟩, rfl | ⟨v, rfl⟩⟩
    all_goals
      have hcheck : checkAccess off 4 = .ok () := (checkAccess_ok_iff off 4).mpr ⟨h4, hle, rfl⟩
      simp [decode, hcheck]

/-- A host write always goes on, with an effect or with none (R100, R108, R109). -/
theorem exec_writeAt_next (off : Nat) (v : Word) (s : State) : ∃ t, exec (writeAt off v) s = .next t := by
  unfold writeAt
  split
  · rw [exec_wrCtrl]; exact exec_decodeCommand_next _ s
  split
  · exact ⟨s, rfl⟩
  split
  · exact whenIdle_next s _
  split
  · exact whenIdle_next s _
  repeat' split
  all_goals exact ⟨s, rfl⟩

/-- A step on an access that decodes goes on, in every state of the block. -/
theorem step_next_of_access {s : State} {a : Access} {rest : List Turn} {i : Instr} (hc : CodesOk s)
    (ht : s.turns = .access a :: rest) (hd : decodeAccess s.cfg.regBase a = .ok i) : ∃ t, step s = .next t := by
  rw [step_of_fetch_instr hc (fetch_access ht hd)]
  obtain ⟨off, -, ⟨-, rfl⟩ | ⟨v, -, rfl⟩⟩ := decodeAccess_ok hd
  · obtain ⟨w, hw⟩ := exec_readAt off { s with turns := rest }
    exact ⟨_, hw⟩
  · exact exec_writeAt_next off v _

theorem step_refused_of_access {s : State} {a : Access} {rest : List Turn} {r : Reject} (hc : CodesOk s)
    (ht : s.turns = .access a :: rest) (hd : decodeAccess s.cfg.regBase a = .error r) :
    step s = .refused (refusalOf r) := by
  have hf : fetch s = .reject r := by simp [fetch, ht, hd, runAt]
  rw [step_of_codesOk hc, hf]

/-- Settles O14: whether the step goes on is whether the access decodes. -/
theorem onlyAlignedWordAccessesAreDefined : Obligations.OnlyAlignedWordAccessesAreDefined := by
  intro s a rest hc ht
  rw [← decodeAccess_ok_iff]
  cases hd : decodeAccess s.cfg.regBase a with
  | ok i =>
    have hnext := step_next_of_access hc ht hd
    exact ⟨⟨fun _ => ⟨i, rfl⟩, fun _ => hnext⟩, fun hstop => absurd hnext hstop⟩
  | error r =>
    have hstep := step_refused_of_access hc ht hd
    refine ⟨by simp [hstep], fun _ => ?_⟩
    rw [hstep]
    cases r with
    | reservedStateCode => exact absurd rfl (decodeAccess_error_ne hd)
    | outsideWindow => exact .inl rfl
    | badWidth => exact .inr (.inl rfl)
    | misaligned => exact .inr (.inr rfl)

/-! ### Who writes FRAME -/

theorem EngineStep.frame_eq_or {s t : State} (h : EngineStep s t) :
    t.frame = s.frame ∨ s.pc = StateCode.done ∧ t.frame = s.buf.frame := by
  cases h with
  | doneAcquire hp _ => exact .inr ⟨hp, rfl⟩
  | doneReadSensor hp _ => exact .inr ⟨hp, by simp⟩
  | _ => exact .inl (by simp)

/-- The writes of the two FRAME rows, as turns (R28, R58). -/
theorem hostTurn_wrFrameLo {s : State} {v : Word} {rest : List Turn}
    (ht : s.turns = .access (.memWrite (s.cfg.regBase + Offset.frameLo) 4 v) :: rest) : hostTurn s (.wrFrameLo v) :=
  ⟨_, by rw [ht]; rfl, decodeAccess_memWrite s.cfg.regBase Offset.frameLo 4 v⟩

theorem hostTurn_wrFrameHi {s : State} {v : Word} {rest : List Turn}
    (ht : s.turns = .access (.memWrite (s.cfg.regBase + Offset.frameHi) 4 v) :: rest) : hostTurn s (.wrFrameHi v) :=
  ⟨_, by rw [ht]; rfl, decodeAccess_memWrite s.cfg.regBase Offset.frameHi 4 v⟩

/-- Settles O37, by the kind of turn. -/
theorem frameChangesOnlyWhenPublishedOrWritten : Obligations.FrameChangesOnlyWhenPublishedOrWritten := by
  intro s t h hne
  obtain ⟨-, ⟨hturn, he⟩ | ⟨a, rest, ht, ha⟩ | ⟨rest, -, rfl⟩ | ⟨rest, ht, rfl⟩⟩ := step_cases h
  · exact .inl ⟨hturn, he.frame_eq_or.resolve_left hne⟩
  · cases ha with
    | frameLoWritten v hp ha => exact .inr (.inl ⟨hp, v, .inl (hostTurn_wrFrameLo (ha ▸ ht))⟩)
    | frameHiWritten v hp ha => exact .inr (.inl ⟨hp, v, .inr (hostTurn_wrFrameHi (ha ▸ ht))⟩)
    | _ => simp at hne
  · exact absurd rfl hne
  · exact .inr (.inr (resetTurn_of_turns ht))

/-! ### Progress -/

/-- A step the engine can take is taken when the turn is the engine's. -/
theorem step_of_engineStep {s t : State} (hc : CodesOk s) (hturn : engineTurn s)
    (h : EngineStep { s with turns := s.turns.tail } t) : step s = .next t := by
  obtain ⟨i, hd, hx⟩ := h.exec_eq
  cases ht : s.turns with
  | nil =>
    have hs : { s with turns := s.turns.tail } = s := by rw [ht, List.tail_nil, ← ht]
    exact (step_eq_next_iff hc ht).mpr (hs ▸ h)
  | cons turn rest =>
    obtain rfl : turn = .engine := by simpa [engineTurn, ht] using hturn
    rw [ht] at hx
    rw [step_of_fetch_instr hc (fetch_engine ht hd)]
    exact hx

theorem decode_state_of_pcLegal {c : BitVec 4} (h : pcLegal c = true) : ∃ i, decode (.state c) = .ok i := by
  have hne : decodeState c ≠ .error .reservedStateCode := by revert c; decide
  rcases (decodeState_table c).resolve_left hne with e | e | e | e | e | e | e | e | e | e | e | e | e
  all_goals exact ⟨_, e.2⟩

theorem LineOk.dir_input {s : State} (hs : LineOk s) (hp : 0x4#4 ≤ s.pc) : s.dir = .input := by
  obtain ⟨-, -, hreleased⟩ := hs
  refine (hreleased ?_ ?_).1
  all_goals (intro h; rw [h] at hp; revert hp; decide)

/-- A wait with the pin an input ends, fails or goes on (R135). -/
theorem engineStep_of_wait {s : State} {w : WaitRow} (hw : w ∈ waitTable) (hp : s.pc = w.code) (hd : s.dir = .input) :
    ∃ t, EngineStep s t := by
  by_cases hl : s.nextLevel = w.target
  · exact ⟨_, .waitEnds w hw hp hd hl⟩
  · cases he : exhausted (w.bound s.cfg) (s.poll + 1) with
    | true => exact ⟨_, .waitFails w hw hp hd hl he⟩
    | false => exact ⟨_, .waitGoesOn w hw hp hd hl he⟩

theorem engineStep_of_bitCommit {s : State} (hp : s.pc = StateCode.bitCommit) (hb : s.bidx ≤ 4#3) :
    ∃ t, EngineStep s t := by
  by_cases hn : s.nbit + 1#4 = 8#4
  · obtain ⟨b, hb⟩ := Option.isSome_iff_exists.mp
      ((store_isSome_iff s.buf s.bidx (shiftIn s.acc s.sbit)).mpr hb)
    exact ⟨_, .byteStored hp hn b hb⟩
  · exact ⟨_, .bitShifted hp hn⟩

/-- The engine can take a step from every state of the invariant: the line's direction is the one each state needs, and the
byte received has a place in the buffer. -/
theorem SafeState.engineStep {s : State} (hs : SafeState s) : ∃ t, EngineStep s t := by
  obtain ⟨⟨-, hpc, -⟩, hline, -, ⟨-, -, -, -, hbidx, -⟩, -, -⟩ := hs
  have hwait {w : WaitRow} (hw : w ∈ waitTable) (hp : s.pc = w.code) : ∃ t, EngineStep s t :=
    engineStep_of_wait hw hp (hline.dir_input (hp ▸ (waitTable_codes hw).1))
  obtain ⟨i, hd⟩ := decode_state_of_pcLegal hpc
  rcases decodeState_ok hd with ⟨hp, -⟩ | ⟨hp, -⟩ | ⟨hp, -⟩ | ⟨hp, -⟩ | ⟨hp, -⟩ | ⟨hp, -⟩ | ⟨hp, -⟩
    | ⟨hp, -⟩ | ⟨hp, -⟩ | ⟨hp, -⟩ | ⟨hp, -⟩ | ⟨hp, -⟩ | ⟨hp, -⟩
  · exact ⟨_, .idle hp⟩
  · exact ⟨_, .startHigh hp⟩
  · exact ⟨_, .startLow hp (hline.1 hp).1⟩
  · exact ⟨_, .startRelease hp (hline.2.1 hp).1⟩
  · exact hwait (w := ⟨.waitAckLow, 0x4#4, .low, .noResponse, 0x5#4⟩) (by decide) hp
  · exact hwait (w := ⟨.waitHsHigh, 0x5#4, .high, .timeout, 0x6#4⟩) (by decide) hp
  · exact hwait (w := ⟨.waitHsLow, 0x6#4, .low, .timeout, 0x7#4⟩) (by decide) hp
  · exact hwait (w := ⟨.waitBitHigh, 0x7#4, .high, .timeout, 0x8#4⟩) (by decide) hp
  · have hdir := hline.dir_input (by simp [hp])
    cases hl : s.nextLevel with
    | high => exact ⟨_, .sampledHigh hp hdir hl⟩
    | low => exact ⟨_, .sampledLow hp hdir hl⟩
  · exact ⟨_, .bitTail hp⟩
  · exact hwait (w := ⟨.waitBitLow, 0xA#4, .low, .timeout, 0xB#4⟩) (by decide) hp
  · exact engineStep_of_bitCommit hp (hbidx (by simp [hp]) (by simp [hp]))
  · by_cases hm : s.mode = 0#1
    · exact ⟨_, .doneAcquire hp hm⟩
    · exact ⟨_, .doneReadSensor hp hm⟩

/-- Settles O6, by the kind of the next turn. -/
theorem invariantGivesANextStep : Obligations.InvariantGivesANextStep := by
  intro s hs haccess
  have hc : CodesOk s := hs.1
  have hengine (hturn : engineTurn s) : ∃ t, step s = .next t := by
    obtain ⟨t, he⟩ := SafeState.engineStep (s := { s with turns := s.turns.tail }) hs
    exact ⟨t, step_of_engineStep hc hturn he⟩
  cases ht : s.turns with
  | nil => exact hengine (.inl ht)
  | cons turn rest =>
    cases turn with
    | engine => exact hengine (.inr (by rw [ht]; rfl))
    | access a =>
      obtain ⟨i, hd⟩ := haccess a (by rw [ht]; rfl)
      exact step_next_of_access hc ht hd
    | waitIdle => exact ⟨_, step_of_fetch_instr hc (fetch_waitIdle ht)⟩
    | reset => exact ⟨_, by rw [step_of_codesOk hc, fetch, ht]⟩

/-! ### Reading FRAME in two halves -/

/-- The two words a host reads are FRAME's halves (R31, R32, R34). -/
theorem frameHiWord_append_frameLoWord (s : State) : s.frameHiWord.extractLsb' 0 8 ++ s.frameLoWord = s.frame := by
  have hhi : s.frameHiWord.extractLsb' 0 8 = s.frame.extractLsb' 32 8 := by
    rw [State.frameHiWord, BitVec.zeroExtend, BitVec.extractLsb'_setWidth_of_le (by decide), BitVec.extractLsb'_eq_self]
  rw [hhi, State.frameLoWord, BitVec.extractLsb'_append_extractLsb'_eq_extractLsb' (Nat.zero_add 32).symm]
  exact BitVec.extractLsb'_eq_self

/-- Engine turns of an idle block only pass (R131): a run from behind them is a run from before them. -/
theorem reaches_idle_engines {s t : State} {n k : Nat} {rest : List Turn} (hc : CodesOk s) (hp : s.pc = StateCode.idle)
    (ht : s.turns = List.replicate n .engine ++ rest) (h : reaches k { s with turns := rest } t) :
    reaches (n + k) s t := by
  induction n generalizing s with
  | zero =>
    obtain rfl : s.turns = rest := ht
    rwa [Nat.zero_add]
  | succ n ih =>
    have hstep : step s = .next { s with turns := s.turns.tail } :=
      step_of_engineStep hc (.inr (by rw [ht]; rfl)) (.idle hp)
    rw [Nat.add_right_comm]
    exact reaches_succ_iff.mpr ⟨_, hstep, ih (by exact hc) hp (by rw [ht]; rfl) h⟩

/-- A step on a read of either half of FRAME (R107). -/
theorem step_rdFrameLo {s : State} {rest : List Turn} (hc : CodesOk s)
    (ht : s.turns = .access (.memRead (s.cfg.regBase + Offset.frameLo) 4) :: rest) :
    step s = .next (reply s.frameLoWord { s with turns := rest }) :=
  step_of_fetch_instr hc (fetch_access (i := .rdFrameLo) ht (decodeAccess_memRead ..))

theorem step_rdFrameHi {s : State} {rest : List Turn} (hc : CodesOk s)
    (ht : s.turns = .access (.memRead (s.cfg.regBase + Offset.frameHi) 4) :: rest) :
    step s = .next (reply s.frameHiWord { s with turns := rest }) :=
  step_of_fetch_instr hc (fetch_access (i := .rdFrameHi) ht (decodeAccess_memRead ..))

/-- The second read, any number of engine turns later, still sees the FRAME of an idle block. -/
theorem reaches_rdFrameHi_of_idle {s : State} {n : Nat} {rest : List Turn} (hc : CodesOk s) (hp : s.pc = StateCode.idle)
    (ht : s.turns = List.replicate n .engine ++ .access (.memRead (s.cfg.regBase + Offset.frameHi) 4) :: rest) :
    reaches (n + 1) s (reply s.frameHiWord { s with turns := rest }) := by
  apply reaches_idle_engines hc hp ht
  exact reaches_succ_iff.mpr ⟨_, step_rdFrameHi hc rfl, reaches_zero_iff.mpr rfl⟩

/-- Settles O41: nothing between the two reads changes FRAME, so they return the halves of one frame. -/
theorem idleFrameReadsAreConsistent : Obligations.IdleFrameReadsAreConsistent := by
  intro s n rest hc hp ht
  exact ⟨_, _, step_rdFrameLo hc ht, reaches_rdFrameHi_of_idle hc hp rfl, rfl, rfl, frameHiWord_append_frameLoWord s⟩

end Sys2Proof.Machine
end

section
/-! PROOFS, family 30_encoding.md: decoding and encoding undo each other (R76, R80, R28), a command is chosen by bits 7:0 of
the value written to CTRL (R77), and reserved codes in a state are refused (R82). -/

namespace Sys2Proof.Machine

/-! ### From the instruction to its code and back -/

/-- Settles O7, by the instruction's row: a reserved command's code selects its own row, and every other row's code, with any
value written, is read back by evaluation. -/
theorem decodeOfEncodeIsTheInstruction : Obligations.DecodeOfEncodeIsTheInstruction := by
  intro i
  cases i with
  | reservedCmd04 code => exact Laws.RoundTrip.reservedCmd04 code
  | reservedCmd08 code => exact Laws.RoundTrip.reservedCmd08 code
  | reservedCmd10 code => exact Laws.RoundTrip.reservedCmd10 code
  | reservedCmd20 code => exact Laws.RoundTrip.reservedCmd20 code
  | reservedCmd40 code => exact Laws.RoundTrip.reservedCmd40 code
  | reservedCmd80 code => exact Laws.RoundTrip.reservedCmd80 code
  | nop | acquire | decode | readSensor
  | idle | startHigh | startLow | startRelease | waitAckLow | waitHsHigh | waitHsLow | waitBitHigh | bitSample | bitTail
  | waitBitLow | bitCommit | done
  | rdCtrl | rdStatus | rdFrameLo | rdFrameHi | rdReading | rdReserved14 | rdReserved18 | rdReserved1C
  | wrCtrl _ | wrStatus _ | wrFrameLo _ | wrFrameHi _ | wrReading _ | wrReserved14 _ | wrReserved18 _ | wrReserved1C _ =>
    exact fun _ => rfl

/-! ### From the code to its instruction and back -/

theorem encode_decodeCommand (c : BitVec 8) : encode (decodeCommand c) = .command (commandValue c) := by
  unfold decodeCommand
  split
  next h => subst h; rfl
  split
  next h => subst h; rfl
  split
  next h => subst h; rfl
  split
  next h => subst h; rfl
  repeat' split
  all_goals rfl

theorem wellFormed_encode_of_decode_state {c : BitVec 4} {i : Instr} (h : decode (.state c) = .ok i) :
    i.wellFormed = true ∧ encode i = .state c := by
  rcases decodeState_ok h with ⟨rfl, rfl⟩ | ⟨rfl, rfl⟩ | ⟨rfl, rfl⟩ | ⟨rfl, rfl⟩ | ⟨rfl, rfl⟩ | ⟨rfl, rfl⟩ | ⟨rfl, rfl⟩
    | ⟨rfl, rfl⟩ | ⟨rfl, rfl⟩ | ⟨rfl, rfl⟩ | ⟨rfl, rfl⟩ | ⟨rfl, rfl⟩ | ⟨rfl, rfl⟩
  all_goals exact ⟨rfl, rfl⟩

theorem wellFormed_encode_readAt {off : Nat} (ho : definedOffset off) :
    (readAt off).wellFormed = true ∧ encode (readAt off) = .read off 4 := by
  rcases definedOffset_cases ho with rfl | rfl | rfl | rfl | rfl | rfl | rfl | rfl
  all_goals exact ⟨rfl, rfl⟩

theorem wellFormed_encode_writeAt {off : Nat} (v : Word) (ho : definedOffset off) :
    (writeAt off v).wellFormed = true ∧ encode (writeAt off v) = .write off 4 v := by
  rcases definedOffset_cases ho with rfl | rfl | rfl | rfl | rfl | rfl | rfl | rfl
  all_goals exact ⟨rfl, rfl⟩

/-- The defined accesses (decodeAccess_ok), as codes: the offset selects the register (R28). -/
theorem decode_read_ok {off width : Nat} {i : Instr} (h : decode (.read off width) = .ok i) :
    definedOffset off ∧ width = 4 ∧ i = readAt off := by
  rw [← decodeAccess_memRead 0] at h
  obtain ⟨off', ho, ⟨ha, rfl⟩ | ⟨_, ha, -⟩⟩ := decodeAccess_ok h
  · obtain ⟨rfl, rfl⟩ : off = off' ∧ width = 4 := by simpa using ha
    exact ⟨ho, rfl, rfl⟩
  · cases ha

theorem decode_write_ok {off width : Nat} {v : Word} {i : Instr} (h : decode (.write off width v) = .ok i) :
    definedOffset off ∧ width = 4 ∧ i = writeAt off v := by
  rw [← decodeAccess_memWrite 0] at h
  obtain ⟨off', ho, ⟨ha, -⟩ | ⟨v', ha, rfl⟩⟩ := decodeAccess_ok h
  · cases ha
  · obtain ⟨rfl, rfl, rfl⟩ : off = off' ∧ width = 4 ∧ v = v' := by simpa using ha
    exact ⟨ho, rfl, rfl⟩

/-- Settles O8, by the place the code is read from. -/
theorem encodeOfDecodeIsTheCode : Obligations.EncodeOfDecodeIsTheCode := by
  intro c i h
  cases c with
  | command v =>
    cases h
    exact ⟨decodeCommand_wellFormed _, encode_decodeCommand _⟩
  | state c => exact wellFormed_encode_of_decode_state h
  | read off width =>
    obtain ⟨ho, rfl, rfl⟩ := decode_read_ok h
    exact wellFormed_encode_readAt ho
  | write off width v =>
    obtain ⟨ho, rfl, rfl⟩ := decode_write_ok h
    exact wellFormed_encode_writeAt v ho

/-- Settles O9, closed facts of the decoder. -/
theorem wordsOfEveryFormatDecode : Obligations.WordsOfEveryFormatDecode :=
  ⟨rfl, rfl, rfl, rfl, rfl, rfl⟩

/-! ### Commands -/

/-- Settles O11: the write runs the command of its low byte, and every command goes on. -/
theorem ctrlWriteRunsItsCommand : Obligations.CtrlWriteRunsItsCommand := by
  intro v s
  obtain ⟨t, ht⟩ := exec_decodeCommand_next (commandByte v) s
  exact ⟨decodeCommand (commandByte v), t, rfl, (exec_wrCtrl v s).trans ht, ht⟩

/-- Settles O10: decoder and write read the value through its command byte alone. -/
theorem commandSelectedByTheLowByte : Obligations.CommandSelectedByTheLowByte := by
  intro v w s h
  have hbyte : commandByte v = commandByte w := h
  constructor
  · rw [decode, decode, hbyte]
  · rw [exec_wrCtrl, exec_wrCtrl, hbyte]

/-! ### Reserved codes in a state -/

theorem illFormed_of_reservedState {s : State} (hcfg : configLegal s.cfg = true) (hpc : pcLegal s.pc = false) :
    illFormed s = some .reservedStateCode := by
  simp [illFormed, hcfg, hpc]

theorem illFormed_of_reservedResult {s : State} (hcfg : configLegal s.cfg = true) (hpc : pcLegal s.pc = true)
    (hresult : resultLegal s.result = false) : illFormed s = some .reservedResultCode := by
  simp [illFormed, hcfg, hpc, hresult]

/-- Settles O12: the state is ill-formed, whatever turn is next. -/
theorem reservedCodesAreRefused : Obligations.ReservedCodesAreRefused := by
  constructor
  · intro s hcfg hpc
    have hillegal : pcLegal s.pc = false := decide_eq_false (BitVec.not_le.mpr hpc)
    exact step_of_illFormed (illFormed_of_reservedState hcfg hillegal)
  · intro s hcfg hpc hresult
    have hlegal : pcLegal s.pc = true := decide_eq_true hpc
    have hillegal : resultLegal s.result = false := decide_eq_false (BitVec.not_le.mpr hresult)
    exact step_of_illFormed (illFormed_of_reservedResult hcfg hlegal hillegal)

end Sys2Proof.Machine
end

section
/-! PROOFS, family 40_host_commands.md: the commands (R101 to R106), host reads and writes (R107 to R109), and the outcomes of
a transaction (R110, R112). -/

namespace Sys2Proof.Machine

/-! ### `readSensor = acquire ; decode` -/

/-- An ACQUIRE transaction in state `a` has ended with its frame published (R112, R144). -/
abbrev State.acquired (a : State) : Prop :=
  a.pc = StateCode.idle ∧ a.result = ResultCode.success

/-- Where READ_SENSOR stands when ACQUIRE on the same levels stands at `a` (R110): at `a` in mode 1, with the effect of
DECODE once the frame is published. -/
def State.readSensorTwin (a : State) : State :=
  { (if a.acquired then recordDecode a.frame a else a) with mode := 1#1 }

theorem readSensorTwin_acquired {a : State} (h : a.acquired) :
    a.readSensorTwin = { recordDecode a.frame a with mode := 1#1 } := by
  rw [State.readSensorTwin, if_pos h]

theorem readSensorTwin_not_acquired {a : State} (h : ¬ a.acquired) : a.readSensorTwin = { a with mode := 1#1 } := by
  rw [State.readSensorTwin, if_neg h]

@[simp] theorem readSensorTwin_pc (a : State) : a.readSensorTwin.pc = a.pc := by
  unfold State.readSensorTwin; split <;> simp
@[simp] theorem readSensorTwin_frame (a : State) : a.readSensorTwin.frame = a.frame := by
  unfold State.readSensorTwin; split <;> simp
@[simp] theorem readSensorTwin_cfg (a : State) : a.readSensorTwin.cfg = a.cfg := by
  unfold State.readSensorTwin; split <;> simp
@[simp] theorem readSensorTwin_turns (a : State) : a.readSensorTwin.turns = a.turns := by
  unfold State.readSensorTwin; split <;> simp

theorem codesOk_readSensorTwin {a : State} (h : CodesOk a) : CodesOk a.readSensorTwin := by
  obtain ⟨hcfg, hpc, hresult⟩ := h
  refine ⟨by simpa using hcfg, by simpa using hpc, ?_⟩
  by_cases hend : a.acquired
  · rw [readSensorTwin_acquired hend]; exact resultLegal_recordDecode a.frame a
  · rw [readSensorTwin_not_acquired hend]; exact hresult

/-- Before the frame is published the two transactions differ in `mode` alone. -/
theorem engineStep_twin_of_mode {a t : State} (ha : a.pc ≠ StateCode.idle) (ht : ¬ t.acquired)
    (h : EngineStep { a with mode := 1#1 } { t with mode := 1#1 }) :
    EngineStep a.readSensorTwin t.readSensorTwin := by
  rwa [readSensorTwin_not_acquired fun hend => ha hend.1, readSensorTwin_not_acquired ht]

theorem afterCommit_withMode (m : BitVec 1) (s : State) :
    afterCommit { s with mode := m } = { afterCommit s with mode := m } := by
  by_cases h : s.bidx = 5#3
  · rw [afterCommit_done h, afterCommit_done (by exact h)]; rfl
  · rw [afterCommit_nextBit h, afterCommit_nextBit (by exact h)]; rfl

theorem afterCommit_not_acquired (s : State) : ¬ (afterCommit s).acquired := by
  intro hend
  have hpc := hend.1
  rw [afterCommit_pc] at hpc
  split at hpc <;> cases hpc

/-- DONE in READ_SENSOR mode is DONE in ACQUIRE mode and then DECODE (R144, R103). -/
theorem engineStep_twin_done {a : State} (hp : a.pc = StateCode.done) :
    EngineStep a.readSensorTwin
      { a with frame := a.buf.frame, result := ResultCode.success, pc := StateCode.idle }.readSensorTwin := by
  have hstep := EngineStep.doneReadSensor (s := { a with mode := 1#1 }) hp (by simp)
  rw [readSensorTwin_not_acquired (by simp [hp]), readSensorTwin_acquired ⟨rfl, rfl⟩]
  cases hf : decodeFrame a.buf.frame with
  | ok r =>
    rw [recordDecode_ok _ hf] at hstep ⊢
    exact hstep
  | checksumMismatch =>
    rw [recordDecode_mismatch _ hf] at hstep ⊢
    exact hstep

/-- The two transactions step side by side (R110). -/
theorem EngineStep.readSensorTwin {a t : State} (h : EngineStep a t) (hmode : a.mode = 0#1) :
    EngineStep a.readSensorTwin t.readSensorTwin := by
  cases h with
  | idle hp => exact .idle ((readSensorTwin_pc a).trans hp)
  | startHigh hp => exact engineStep_twin_of_mode (by simp [hp]) (by simp) (.startHigh hp)
  | startLow hp hd => exact engineStep_twin_of_mode (by simp [hp]) (by simp) (.startLow hp hd)
  | startRelease hp hd => exact engineStep_twin_of_mode (by simp [hp]) (by simp) (.startRelease hp hd)
  | waitEnds w hw hp hd hl =>
    exact engineStep_twin_of_mode (waitCode_ne_idle hw hp) (fun hend => waitFollowing_ne_idle hw hend.1)
      (.waitEnds w hw hp hd hl)
  | waitFails w hw hp hd hl he =>
    refine engineStep_twin_of_mode (waitCode_ne_idle hw hp) (fun hend => ?_) (.waitFails w hw hp hd hl he)
    have hfail : failCode w.kind = ResultCode.success := hend.2
    rcases failCode_cases w.kind with hk | hk <;> simp [hk] at hfail
  | waitGoesOn w hw hp hd hl he =>
    exact engineStep_twin_of_mode (waitCode_ne_idle hw hp) (fun hend => waitCode_ne_idle hw hp hend.1)
      (.waitGoesOn w hw hp hd hl he)
  | sampledHigh hp hd hl => exact engineStep_twin_of_mode (by simp [hp]) (by simp) (.sampledHigh hp hd hl)
  | sampledLow hp hd hl => exact engineStep_twin_of_mode (by simp [hp]) (by simp) (.sampledLow hp hd hl)
  | bitTail hp => exact engineStep_twin_of_mode (by simp [hp]) (by simp) (.bitTail hp)
  | bitShifted hp hn =>
    refine engineStep_twin_of_mode (by simp [hp]) (afterCommit_not_acquired _) ?_
    rw [← afterCommit_withMode]
    exact .bitShifted (s := { a with mode := 1#1 }) hp hn
  | byteStored hp hn b hb =>
    refine engineStep_twin_of_mode (by simp [hp]) (afterCommit_not_acquired _) ?_
    rw [← afterCommit_withMode]
    exact .byteStored (s := { a with mode := 1#1 }) hp hn b hb
  | doneAcquire hp _ => exact engineStep_twin_done hp
  | doneReadSensor _ hm => exact absurd hmode hm

/-- A run of an ACQUIRE transaction is matched step by step by READ_SENSOR's. -/
theorem reaches_readSensorTwin {a t : State} {k : Nat} (hc : CodesOk a) (hturns : a.turns = []) (hmode : a.mode = 0#1)
    (h : reaches k a t) : reaches k a.readSensorTwin t.readSensorTwin := by
  induction k generalizing a with
  | zero => exact reaches_zero_iff.mpr (congrArg State.readSensorTwin (reaches_zero_iff.mp h))
  | succ k ih =>
    obtain ⟨u, hu, h⟩ := reaches_succ_iff.mp h
    have hu := (step_eq_next_iff hc hturns).mp hu
    have htwin := (step_eq_next_iff (codesOk_readSensorTwin hc) ((readSensorTwin_turns a).trans hturns)).mpr
      (hu.readSensorTwin hmode)
    exact reaches_succ_iff.mpr
      ⟨_, htwin, ih (hu.codesOk hc) (hu.turns_eq.trans hturns) (hu.mode_eq.trans hmode) h⟩

theorem readSensorTwin_acceptTransaction (s : State) :
    (acceptTransaction 0#1 s).readSensorTwin = acceptTransaction 1#1 s :=
  readSensorTwin_not_acquired (by simp)

/-- Settles O47: READ_SENSOR ends in the twin of the state ACQUIRE ends in, which is that state after DECODE. -/
theorem readSensorIsAcquireThenDecode : Obligations.ReadSensorIsAcquireThenDecode := by
  intro s a k hcfg _ hturns hrun hend
  have htwin := reaches_readSensorTwin (codesOk_acceptTransaction 0#1 hcfg) hturns rfl hrun
  rw [readSensorTwin_acceptTransaction] at htwin
  refine ⟨a.readSensorTwin, htwin, (readSensorTwin_pc a).trans hend, readSensorTwin_frame a, fun hr => ?_, fun hr => ?_⟩
  · rw [readSensorTwin_not_acquired fun h => hr h.2]
    exact ⟨rfl, rfl⟩
  · rw [readSensorTwin_acquired ⟨hend, hr⟩]
    exact ⟨recordDecode a.frame a, whenIdle_idle _ hend, rfl, rfl⟩

/-! ### Commands -/

/-- Settles O16: an idle block accepts, and acceptance writes these fields. -/
theorem acquireAndReadSensorStartATransaction : Obligations.AcquireAndReadSensorStartATransaction := by
  intro s hp
  exact ⟨whenIdle_idle _ hp, whenIdle_idle _ hp⟩

/-- A command that does not act on this block leaves it unchanged: the block is BUSY, or the command is none of the three
that act (R101, R105, R106). -/
theorem exec_decodeCommand_ignored {c : BitVec 8} {s : State}
    (h : s.pc = StateCode.idle → c ≠ CmdCode.acquire ∧ c ≠ CmdCode.readSensor ∧ c ≠ CmdCode.decode) :
    exec (decodeCommand c) s = .next s := by
  obtain ⟨t, ht⟩ := exec_decodeCommand_next c s
  rcases exec_command_cases ht with rfl | ⟨hp, hacts⟩
  · exact ht
  · obtain ⟨hacq, hread, hdec⟩ := h hp
    rcases hacts with ⟨hc, -⟩ | ⟨hc, -⟩ | ⟨hc, -⟩
    · exact absurd hc hacq
    · exact absurd hc hread
    · exact absurd hc hdec

/-- Settles O17: what a CTRL value decodes to is its command, and a BUSY block ignores every command. -/
theorem busyIgnoresEveryCommand : Obligations.BusyIgnoresEveryCommand := by
  intro s hbusy
  have hignored (v : Word) : exec (decodeCommand (commandByte v)) s = .next s :=
    exec_decodeCommand_ignored fun hp => absurd hp hbusy
  refine ⟨fun v => (exec_wrCtrl v s).trans (hignored v), fun v i hi => ?_⟩
  cases hi
  exact hignored v

theorem noEffectCode_ne {c : BitVec 8} (h : c = 0x00#8 ∨ 0x04#8 ≤ c) :
    c ≠ CmdCode.acquire ∧ c ≠ CmdCode.readSensor ∧ c ≠ CmdCode.decode := by
  revert c; decide

theorem commandByte_append (high : BitVec 24) (low : BitVec 8) : commandByte (high ++ low) = low :=
  BitVec.extractLsb'_append_eq_right

/-- Settles O18: a CTRL write is its low byte's command, and these codes select none that acts. -/
theorem nopAndReservedCommandsChangeNothing : Obligations.NopAndReservedCommandsChangeNothing := by
  intro s code
  refine ⟨rfl, rfl, rfl, rfl, rfl, rfl, rfl, fun v hv => ?noEffect, fun high v => ?highBits, rfl⟩
  case noEffect => exact (exec_wrCtrl v s).trans (exec_decodeCommand_ignored fun _ => noEffectCode_ne hv)
  case highBits => rw [exec_wrCtrl, exec_wrCtrl, commandByte_append]; rfl

theorem exec_decode_idle {s : State} (hp : s.pc = StateCode.idle) : exec .decode s = .next (recordDecode s.frame s) :=
  whenIdle_idle _ hp

theorem exec_decode_busy {s : State} (hp : s.pc ≠ StateCode.idle) : exec .decode s = .next s :=
  whenIdle_busy _ hp

theorem recordDecode_recordDecode (f : Frame) (s : State) : recordDecode f (recordDecode f s) = recordDecode f s := by
  cases hf : decodeFrame f with
  | ok r => simp only [recordDecode_ok _ hf]
  | checksumMismatch => simp only [recordDecode_mismatch _ hf]

/-- Settles O19: DECODE records the decoder's answer when idle; recording it twice is recording it once. -/
theorem decodeCommandRecordsTheOutcome : Obligations.DecodeCommandRecordsTheOutcome := by
  intro s
  refine ⟨exec_decode_busy, fun r hp hr => ?decodes, fun hp hr => ?mismatch, fun t u ht hu => ?again⟩
  case decodes => rw [exec_decode_idle hp, recordDecode_ok s hr]; rfl
  case mismatch => rw [exec_decode_idle hp, recordDecode_mismatch s hr]
  case again =>
    rcases whenIdle_cases ht with ⟨-, rfl⟩ | ⟨-, rfl⟩
    · rcases whenIdle_cases hu with ⟨-, rfl⟩ | ⟨-, rfl⟩
      · rw [recordDecode_frame, recordDecode_recordDecode]
      · rfl
    · cases ht.symm.trans hu
      rfl

/-! ### Host reads and writes -/

theorem busyBit_toNat (s : State) : s.busyBit.toNat = if s.pc = 0x0#4 then 0 else 1 := by
  by_cases hp : s.pc = 0x0#4 <;> simp [State.busyBit, State.busy, hp]

/-- STATUS as a number: STATE from bit 8, RESULT from bit 1, BUSY in bit 0 (R30). -/
theorem statusWord_toNat (s : State) :
    s.statusWord.toNat = s.pc.toNat * 256 + s.result.toNat * 2 + (if s.pc = 0x0#4 then 0 else 1) := by
  have happend {m n : Nat} (x : BitVec m) (y : BitVec n) : (x ++ y).toNat = x.toNat * 2 ^ n + y.toNat := by
    rw [BitVec.toNat_append, ← Nat.shiftLeft_add_eq_or_of_lt y.isLt, Nat.shiftLeft_eq]
  rw [State.statusWord]
  simp only [happend, busyBit_toNat, BitVec.toNat_ofNat]
  omega

theorem frameLoWord_toNat (s : State) : s.frameLoWord.toNat = s.frame.toNat % 2 ^ 32 := by
  simp [State.frameLoWord]

theorem frameHiWord_toNat (s : State) : s.frameHiWord.toNat = s.frame.toNat / 2 ^ 32 := by
  have hlt := s.frame.isLt
  simp only [State.frameHiWord, BitVec.zeroExtend, BitVec.toNat_setWidth, BitVec.extractLsb'_toNat,
    Nat.shiftRight_eq_div_pow]
  omega

/-- Settles O20: each read replies its register's view, whose value the lemmas above give. -/
theorem hostReadsReturnTheRegisterViews : Obligations.HostReadsReturnTheRegisterViews := by
  intro s
  exact ⟨rfl, ⟨s.statusWord, statusWord_toNat s, rfl⟩, ⟨s.frameLoWord, frameLoWord_toNat s, rfl⟩,
    ⟨s.frameHiWord, frameHiWord_toNat s, rfl⟩, rfl, rfl, rfl, rfl⟩

/-- Settles O21: both writes wait for an idle block. -/
theorem frameWritesTakeEffectWhenIdle : Obligations.FrameWritesTakeEffectWhenIdle := by
  intro s v
  exact ⟨exec_wrFrameLo_idle v, exec_wrFrameHi_idle v, fun hbusy => ⟨whenIdle_busy _ hbusy, whenIdle_busy _ hbusy⟩⟩

/-- Settles O22: each of these writes answers the state it was given. -/
theorem readOnlyWritesChangeNothing : Obligations.ReadOnlyWritesChangeNothing :=
  fun _ _ => ⟨rfl, rfl, rfl, rfl, rfl⟩

/-! ### Outcomes -/

/-- Settles O50: an idle block is not BUSY, and then the RESULT code selects the outcome. -/
theorem outcomeReadFromTheRegisters : Obligations.OutcomeReadFromTheRegisters := by
  intro s hp
  have hidle : s.busy = false := (not_busy_iff s).mpr hp
  refine ⟨fun hr => ?_, fun hr => ?_, fun hr => ?_, fun hr => ?_⟩
  all_goals simp [State.acquireOutcome, State.readOutcome, hidle, hr]

end Sys2Proof.Machine
end

section
/-! PROOFS, family 41_protocol_engine.md: one step of each engine state (R131 to R144), which state follows which
(R130), the line's primitives (R148, R149), and whole transactions: their end, their frame and their length (R135, R145
to R147). -/

namespace Sys2Proof.Machine

/-! ### One step of each state -/

/-- Settles O26: the primitives run in the order written, and a write with the pin an output goes on. -/
theorem startSignalSteps : Obligations.StartSignalSteps := by
  intro s
  refine ⟨rfl, fun hd => ?low, fun hd => ?release⟩
  case low => rw [exec, execStartLow, lineWrite_output _ _ hd]; rfl
  case release => rw [exec, execStartRelease, lineWrite_output _ _ hd]; rfl

/-- One poll iteration of a wait, as a whole next state (R135). -/
theorem exec_wait_input {w : WaitRow} {s : State} (hw : w ∈ waitTable) (hd : s.dir = .input) :
    exec w.instr s = .next
      (if s.nextLevel = w.target then { tookLevel s with poll := 0, pc := w.following }
      else if exhausted (w.bound s.cfg) (s.poll + 1) then
        { tookLevel s with poll := s.poll + 1, result := failCode w.kind, pc := StateCode.idle }
      else
        { tookLevel s with
          poll := s.poll + 1, trace := .delayUs s.cfg.pollUs :: .read s.nextLevel :: s.trace }) := by
  rw [exec_wait hw, pollOnce, lineRead_input _ hd]
  split
  · rfl
  · dsimp only [tookLevel_poll]
    split <;> rfl

section Wait

variable {w : WaitRow} {s : State} (hw : w ∈ waitTable) (hd : s.dir = .input)
include hw hd

theorem exec_wait_target (hl : s.nextLevel = w.target) :
    exec w.instr s = .next { tookLevel s with poll := 0, pc := w.following } := by
  rw [exec_wait_input hw hd, if_pos hl]

theorem exec_wait_fails (hl : s.nextLevel ≠ w.target) (he : exhausted (w.bound s.cfg) (s.poll + 1) = true) :
    exec w.instr s = .next
      { tookLevel s with poll := s.poll + 1, result := failCode w.kind, pc := StateCode.idle } := by
  rw [exec_wait_input hw hd, if_neg hl, if_pos he]

theorem exec_wait_goesOn (hl : s.nextLevel ≠ w.target) (he : exhausted (w.bound s.cfg) (s.poll + 1) = false) :
    exec w.instr s = .next
      { tookLevel s with
        poll := s.poll + 1, trace := .delayUs s.cfg.pollUs :: .read s.nextLevel :: s.trace } := by
  rw [exec_wait_input hw hd, if_neg hl, if_neg (by simp [he])]

end Wait

/-- A bound is not used up by `n` reads exactly if it is unbounded or more than `n` (R135). -/
theorem exhausted_eq_false_iff (b : Config.Bound) (n : Nat) :
    exhausted b n = false ↔ b = .unbounded ∨ ∃ m, b = .reads m ∧ n < m := by
  cases b <;> simp [exhausted]

theorem exhausted_eq_true_iff (b : Config.Bound) (n : Nat) : exhausted b n = true ↔ ∃ m, b = .reads m ∧ m ≤ n := by
  cases b <;> simp [exhausted]

/-- Every wait but the acknowledgement wait has the bound `WAIT_POLLS` (R211). -/
theorem bound_of_timeout {w : WaitRow} (hk : w.kind = .timeout) (p : Config.Params) : w.bound p = p.waitPolls := by
  rw [WaitRow.bound, hk]

/-- Settles O28: the acknowledgement wait is the first row of the table of waits. -/
theorem acknowledgementWaitPolls : Obligations.AcknowledgementWaitPolls := by
  intro s hd
  have hw : (⟨.waitAckLow, 0x4#4, .low, .noResponse, 0x5#4⟩ : WaitRow) ∈ waitTable := by decide
  refine ⟨fun hl => ?low, fun hl hb => ?last, fun hl hb => ?waits⟩
  case low => exact hl ▸ exec_wait_target hw hd hl
  case last => exact hl ▸ exec_wait_fails hw hd (by simp [hl]) (decide_eq_true hb)
  case waits => exact hl ▸ exec_wait_goesOn hw hd (by simp [hl]) (decide_eq_false (by simpa using hb))

/-- Settles O29, by the three ways a poll iteration goes on. -/
theorem boundedWaitsPoll : Obligations.BoundedWaitsPoll := by
  intro s w hw hk hd
  have hbound := bound_of_timeout hk s.cfg
  refine ⟨fun hl => ?target, fun n hl hb hn => ?last, fun hl hb => ?waits⟩
  case target => exact hl ▸ exec_wait_target hw hd hl
  case last =>
    have he : exhausted (w.bound s.cfg) (s.poll + 1) = true := hbound ▸ (exhausted_eq_true_iff _ _).mpr ⟨n, hb, hn⟩
    rw [exec_wait_fails hw hd hl he, hk]
    rfl
  case waits => exact exec_wait_goesOn hw hd hl (hbound ▸ (exhausted_eq_false_iff _ _).mpr hb)

/-- Settles O31, by the level read. -/
theorem bitSampleLatchesOneRead : Obligations.BitSampleLatchesOneRead := by
  intro s hd
  refine ⟨fun hl => ?high, fun hl => ?low⟩
  case high => exact hl ▸ execBitSample_high hd hl
  case low => exact hl ▸ execBitSample_low hd hl

/-- Settles O32: BIT_TAIL has no branch. -/
theorem bitTailHolds : Obligations.BitTailHolds := fun _ => rfl

/-- The accumulator after a shift, as a number (R143). -/
theorem shiftIn_toNat (acc : Byte) (b : BitVec 1) : (shiftIn acc b).toNat = (acc.toNat * 2 + b.toNat) % 256 := by
  have hdisjoint : acc <<< 1 &&& b.zeroExtend 8 = 0#8 := by revert b acc; decide
  rw [shiftIn, ← BitVec.add_eq_or_of_and_eq_zero _ _ hdisjoint]
  simp [Nat.shiftLeft_eq]

/-- BIT_COMMIT before the eighth bit (R143). -/
theorem execBitCommit_shift {s : State} (hn : s.nbit + 1#4 ≠ 8#4) :
    exec .bitCommit s = .next (afterCommit { s with acc := shiftIn s.acc s.sbit, nbit := s.nbit + 1#4 }) :=
  if_neg hn

/-- BIT_COMMIT at the eighth bit (R143). -/
theorem execBitCommit_store {s : State} {b : FrameBuffer} (hn : s.nbit + 1#4 = 8#4)
    (hb : s.buf.store s.bidx (shiftIn s.acc s.sbit) = some b) :
    exec .bitCommit s =
      .next (afterCommit { s with buf := b, bidx := s.bidx + 1#3, acc := 0x00#8, nbit := 0#4 }) := by
  refine (if_pos hn).trans ?_
  rw [hb]

/-- Settles O33: the bit is shifted in or the byte stored, and `bidx` then says which state follows. -/
theorem bitCommitShiftsAndStores : Obligations.BitCommitShiftsAndStores := by
  intro s hle
  refine ⟨fun hn => ?shift, fun hn hi => ?store⟩
  case shift =>
    have hn8 : s.nbit + 1#4 ≠ 8#4 := by bv_omega
    refine ⟨shiftIn s.acc s.sbit, shiftIn_toNat _ _, fun hi => ?_, fun hi => ?_⟩
    · rw [execBitCommit_shift hn8, afterCommit_nextBit (by exact hi)]; rfl
    · rw [execBitCommit_shift hn8, afterCommit_done (by exact hi)]; rfl
  case store =>
    obtain ⟨b, hb⟩ := Option.isSome_iff_exists.mp
      ((store_isSome_iff s.buf s.bidx (shiftIn s.acc s.sbit)).mpr hi)
    have hstored := execBitCommit_store (by rw [hn]; rfl) hb
    refine ⟨_, b, shiftIn_toNat _ _, load_store hb, fun _ hj => load_store_of_ne hb hj.symm, fun hi4 => ?_,
      fun hi4 => ?_⟩
    · have hi5 : s.bidx + 1#3 ≠ 5#3 := by bv_omega
      rw [hstored, afterCommit_nextBit (by exact hi5)]; rfl
    · have hi5 : s.bidx + 1#3 = 5#3 := by rw [hi4]; rfl
      rw [hstored, afterCommit_done (by exact hi5), hi5]; rfl

/-- Settles O34, by the mode and the decoder's answer. -/
theorem donePublishesTheFrame : Obligations.DonePublishesTheFrame := by
  intro s f hf
  obtain rfl : f = s.buf.frame := hf
  have hexec : exec .done s = .next (goTo StateCode.idle
      (if s.mode = 0#1 then { s with frame := s.buf.frame, result := ResultCode.success }
      else recordDecode s.buf.frame { s with frame := s.buf.frame })) := rfl
  refine ⟨fun hm => ?acquire, fun r hm hr => ?decodes, fun hm hr => ?mismatch⟩
  case acquire => rw [hexec, if_pos hm]; rfl
  case decodes => rw [hexec, if_neg (by simp [hm]), recordDecode_ok _ hr]; rfl
  case mismatch => rw [hexec, if_neg (by simp [hm]), recordDecode_mismatch _ hr]; rfl

/-! ### Which state follows which -/

/-- An engine step is what the state's own instruction answers. -/
theorem EngineStep.exec_of_decode {s t : State} {i : Instr} (h : EngineStep s t) (hd : decode (.state s.pc) = .ok i) :
    exec i s = .next t := by
  obtain ⟨j, hj, hx⟩ := h.exec_eq
  cases hd.symm.trans hj
  exact hx

theorem EngineStep.eq_of_idle {s t : State} (h : EngineStep s t) (hp : s.pc = StateCode.idle) : t = s := by
  cases h.exec_of_decode (i := .idle) (by rw [hp]; rfl)
  rfl

/-- A host access leaves `pc`, or it is a CTRL write of ACQUIRE or READ_SENSOR to an idle block (R100, R102). -/
theorem HostStep.pc_eq_or_accepted {base : Nat} {a : Access} {s t : State} (h : HostStep base a s t) :
    t.pc = s.pc ∨ s.pc = StateCode.idle ∧ t.pc = StateCode.startHigh ∧ ∃ v : Word, a = .memWrite base 4 v ∧
      (v.extractLsb' 0 8 = 0x01#8 ∨ v.extractLsb' 0 8 = 0x03#8) := by
  cases h with
  | accepted v m hp ha hc => exact .inr ⟨hp, rfl, v, ha, hc.imp And.left And.left⟩
  | _ => exact .inl (by simp)

/-- A step that leaves IDLE is an acceptance (R131, R241). -/
theorem step_leaves_idle {s t : State} (h : step s = .next t) (hp : s.pc = StateCode.idle)
    (hne : t.pc ≠ StateCode.idle) :
    t.pc = StateCode.startHigh ∧ ∃ (v : Word) (rest : List Turn),
      s.turns = .access (.memWrite s.cfg.regBase 4 v) :: rest ∧
        (v.extractLsb' 0 8 = 0x01#8 ∨ v.extractLsb' 0 8 = 0x03#8) := by
  obtain ⟨-, ⟨-, he⟩ | ⟨a, rest, ht, ha⟩ | ⟨rest, -, rfl⟩ | ⟨rest, -, rfl⟩⟩ := step_cases h
  · cases he.eq_of_idle hp
    exact absurd hp hne
  · obtain hsame | ⟨-, hstart, v, rfl, hv⟩ := ha.pc_eq_or_accepted
    · exact absurd (hsame.trans hp) hne
    · exact ⟨hstart, v, rest, ht, hv⟩
  · exact absurd hp hne
  · exact absurd rfl hne

/-- Settles O25: an idle engine's turn uses up only the turn, and a step that leaves IDLE is an acceptance. -/
theorem idleWaitsForACommand : Obligations.IdleWaitsForACommand :=
  ⟨fun _ => rfl, fun _ hc hp hturn => step_of_engineStep hc hturn (.idle hp),
    fun _ _ h hp hne => step_leaves_idle h hp hne⟩

theorem waitTable_successors {w : WaitRow} (hw : w ∈ waitTable) :
    w.code ∈ successors w.code ∧ w.following ∈ successors w.code ∧ StateCode.idle ∈ successors w.code := by
  fin_cases hw <;> decide

/-- An engine step goes to a successor of R130, or the engine is idle and stays. -/
theorem EngineStep.pc_mem_successors {s t : State} (h : EngineStep s t) :
    t.pc ∈ successors s.pc ∨ s.pc = StateCode.idle ∧ t.pc = s.pc := by
  cases h with
  | idle hp => exact .inr ⟨hp, rfl⟩
  | waitEnds w hw hp _ _ => exact .inl (hp ▸ (waitTable_successors hw).2.1)
  | waitFails w hw hp _ _ _ => exact .inl (hp ▸ (waitTable_successors hw).2.2)
  | waitGoesOn w hw hp _ _ _ =>
    have hmem : s.pc ∈ successors s.pc := hp ▸ (waitTable_successors hw).1
    exact .inl hmem
  | bitShifted hp _ | byteStored hp _ _ _ =>
    left
    rw [hp, afterCommit_pc]
    split <;> decide
  | startHigh hp | startLow hp _ | startRelease hp _ | sampledHigh hp _ _ | sampledLow hp _ _ | bitTail hp
  | doneAcquire hp _ | doneReadSensor hp _ => exact .inl (by simp [hp, successors])

/-- Only a failing wait and DONE go to IDLE, and the failure is the wait's own (R130, R136 to R139, R142). -/
theorem EngineStep.result_of_failure {s t : State} (h : EngineStep s t) (hidle : s.pc ≠ StateCode.idle)
    (hdone : s.pc ≠ StateCode.done) (ht : t.pc = StateCode.idle) :
    t.result = if s.pc = StateCode.waitAckLow then ResultCode.noResponse else ResultCode.timeout := by
  cases h with
  | idle hp => exact absurd hp hidle
  | waitEnds w hw _ _ _ => exact absurd ht (waitFollowing_ne_idle hw)
  | waitFails w hw hp _ _ _ =>
    rw [hp]
    fin_cases hw <;> rfl
  | waitGoesOn _ _ _ _ _ _ => exact absurd ht hidle
  | bitShifted _ _ | byteStored _ _ _ _ =>
    rw [afterCommit_pc] at ht
    split at ht <;> cases ht
  | doneAcquire hp _ | doneReadSensor hp _ => exact absurd hp hdone
  | startHigh _ | startLow _ _ | startRelease _ _ | sampledHigh _ _ _ | sampledLow _ _ _ | bitTail _ => cases ht

/-- The bit sampled selects the successor of BIT_SAMPLE (R140). -/
theorem EngineStep.pc_of_bitSample {s t : State} (h : EngineStep s t) (hp : s.pc = StateCode.bitSample) :
    t.pc = StateCode.bitTail ∧ t.sbit = 1#1 ∨ t.pc = StateCode.bitCommit ∧ t.sbit = 0#1 := by
  have hx : execBitSample s = .next t := h.exec_of_decode (i := .bitSample) (by rw [hp]; rfl)
  have hd : s.dir = .input := (lineRead_next_iff.mp hx).1
  cases hl : s.nextLevel with
  | high => cases (execBitSample_high hd hl).symm.trans hx; exact .inl ⟨rfl, rfl⟩
  | low => cases (execBitSample_low hd hl).symm.trans hx; exact .inr ⟨rfl, rfl⟩

/-- BIT_COMMIT ends with its choice of successor; before that it touches neither `poll` nor the levels (R143). -/
theorem EngineStep.exists_afterCommit {s t : State} (h : EngineStep s t) (hp : s.pc = StateCode.bitCommit) :
    ∃ u, t = afterCommit u ∧ u.poll = s.poll ∧ u.script = s.script ∧ u.draws = s.draws := by
  have hx : execBitCommit s = .next t := h.exec_of_decode (i := .bitCommit) (by rw [hp]; rfl)
  unfold execBitCommit at hx
  dsimp only at hx
  split at hx
  · split at hx
    · cases hx; exact ⟨_, rfl, rfl, rfl, rfl⟩
    · cases hx
  · cases hx; exact ⟨_, rfl, rfl, rfl, rfl⟩

/-- The number of bytes stored selects the successor of BIT_COMMIT (R143). -/
theorem EngineStep.pc_of_bitCommit {s t : State} (h : EngineStep s t) (hp : s.pc = StateCode.bitCommit) :
    t.pc = if t.bidx = 5#3 then StateCode.done else StateCode.waitBitHigh := by
  obtain ⟨u, rfl, -⟩ := h.exists_afterCommit hp
  rw [afterCommit_pc, afterCommit_bidx]

/-- A host turn is not the engine's. -/
theorem not_engineTurn {s : State} {turn : Turn} {rest : List Turn} (ht : s.turns = turn :: rest)
    (hne : turn ≠ .engine) : ¬ engineTurn s := by
  simp [engineTurn, ht, hne]

/-- Where `pc` goes, by the kind of turn. -/
theorem step_pc_cases {s t : State} (h : step s = .next t) :
    t.pc ∈ successors s.pc ∨ resetTurn s ∨ t.pc = s.pc ∧ (¬ engineTurn s ∨ s.pc = StateCode.idle) := by
  obtain ⟨-, ⟨-, he⟩ | ⟨a, rest, ht, ha⟩ | ⟨rest, ht, rfl⟩ | ⟨rest, ht, rfl⟩⟩ := step_cases h
  · rcases he.pc_mem_successors with hmem | ⟨hp, hsame⟩
    · exact .inl hmem
    · exact .inr (.inr ⟨hsame, .inr hp⟩)
  · obtain hsame | ⟨hp, hstart, -⟩ := ha.pc_eq_or_accepted
    · exact .inr (.inr ⟨hsame, .inl (not_engineTurn ht (by simp))⟩)
    · have hp : s.pc = StateCode.idle := hp
      exact .inl (by simp [hp, hstart, successors])
  · exact .inr (.inr ⟨rfl, .inl (not_engineTurn ht (by simp))⟩)
  · exact .inr (.inl (resetTurn_of_turns ht))

/-- A step on the engine's turn is an engine step. -/
theorem engineStep_of_step {s t : State} (h : step s = .next t) (hturn : engineTurn s) :
    EngineStep { s with turns := s.turns.tail } t := by
  obtain ⟨-, ⟨-, he⟩ | ⟨a, rest, ht, -⟩ | ⟨rest, ht, -⟩ | ⟨rest, ht, -⟩⟩ := step_cases h
  · exact he
  all_goals exact absurd hturn (not_engineTurn ht (by simp))

/-- A busy block's `pc` moves only by an engine step or a reset. -/
theorem engineStep_of_pc_ne {s t : State} (h : step s = .next t) (hp : s.pc ≠ StateCode.idle) (hne : t.pc ≠ s.pc)
    (hreset : ¬ resetTurn s) : EngineStep { s with turns := s.turns.tail } t := by
  obtain ⟨-, ⟨-, he⟩ | ⟨a, rest, -, ha⟩ | ⟨rest, -, rfl⟩ | ⟨rest, ht, -⟩⟩ := step_cases h
  · exact he
  · obtain hsame | ⟨hidle, -⟩ := ha.pc_eq_or_accepted
    · exact absurd hsame hne
    · exact absurd hidle hp
  · exact absurd rfl hne
  · exact absurd (resetTurn_of_turns ht) hreset

/-- Settles O36: the successors and the conditions that choose between them, one lemma each. -/
theorem onlyListedSuccessors : Obligations.OnlyListedSuccessors := by
  intro s t h
  refine ⟨step_pc_cases h, fun hp hne => ?leaves, fun hidle hdone ht hreset => ?fails, fun hp hturn => ?sampled,
    fun hp hturn => ?committed⟩
  case leaves =>
    obtain ⟨-, v, rest, hturn, hv⟩ := step_leaves_idle h hp hne
    exact ⟨v, hostTurn_wrCtrl hturn, hv⟩
  case fails =>
    have he := engineStep_of_pc_ne h hidle (fun hsame => hidle (hsame.symm.trans ht)) hreset
    exact he.result_of_failure hidle hdone ht
  case sampled =>
    rcases (engineStep_of_step h hturn).pc_of_bitSample hp with ⟨hpc, hbit⟩ | ⟨hpc, hbit⟩ <;> simp [hpc, hbit]
  case committed =>
    rw [(engineStep_of_step h hturn).pc_of_bitCommit hp]
    split <;> simp_all

/-! ### The line -/

theorem SafeState.codesOk {s : State} (hs : SafeState s) : CodesOk s := hs.1

theorem SafeState.dir_input {s : State} (hs : SafeState s) (hp : 0x4#4 ≤ s.pc) : s.dir = .input :=
  hs.2.1.dir_input hp

/-- An idle block has released the line (R149). -/
theorem SafeState.released_of_idle {s : State} (hs : SafeState s) (hp : s.pc = StateCode.idle) :
    s.dir = .input ∧ s.drv = .high := by
  obtain ⟨-, ⟨-, -, hreleased⟩, -⟩ := hs
  exact hreleased (by simp [hp]) (by simp [hp])

theorem SafeState.bufferOk {s : State} (hs : SafeState s) : BufferOk s := hs.2.2.2.1

theorem SafeState.sampleOk {s : State} (hs : SafeState s) : SampleOk s := hs.2.2.2.2.1

/-- Settles O43: the invariant holds after the step, and in IDLE it says so. -/
theorem transactionsEndWithTheLineReleased : Obligations.TransactionsEndWithTheLineReleased := by
  intro s t hs h _ ht
  exact (invariantKeptByEveryStep s t hs h).released_of_idle ht

theorem step_ne_fault {s : State} (f : Fault) (hs : SafeState s) : step s ≠ .fault f := by
  by_cases haccess : ∀ a, s.turns.head? = some (.access a) → ∃ i, decodeAccess s.cfg.regBase a = .ok i
  · obtain ⟨t, ht⟩ := invariantGivesANextStep s hs haccess
    simp [ht]
  · push Not at haccess
    obtain ⟨a, hhead, hnone⟩ := haccess
    obtain ⟨rest, ht⟩ := List.head?_eq_some_iff.mp hhead
    cases hd : decodeAccess s.cfg.regBase a with
    | ok i => exact absurd hd (hnone i)
    | error r => simp [step_refused_of_access hs.codesOk ht hd]

@[simp] theorem afterCommit_trace (s : State) : (afterCommit s).trace = s.trace := by unfold afterCommit; split <;> rfl

/-- What R148 allows an engine step at `s` to issue, the latest first. -/
structure ValidPrims (s : State) (issued : List Prim) : Prop where
  writes : ∀ l, Prim.write l ∈ issued → 0x1#4 ≤ s.pc ∧ s.pc ≤ 0x3#4
  driven : s.pc = 0x1#4 → ∃ more, issued = more ++ [.write .high, .setDir .output]
  released : s.pc = 0x3#4 → ∃ more, issued = .setDir .input :: more
  reads : ∀ l, Prim.read l ∈ issued → 0x4#4 ≤ s.pc ∧ s.pc ≤ 0xA#4 ∧ s.dir = .input
  turnsPin : ∀ d, Prim.setDir d ∈ issued → (s.pc = 0x1#4 ∧ d = .output) ∨ (s.pc = 0x3#4 ∧ d = .input)

theorem validPrims_nil {s : State} (h1 : s.pc ≠ 0x1#4) (h3 : s.pc ≠ 0x3#4) : ValidPrims s [] :=
  ⟨by simp, fun h => absurd h h1, fun h => absurd h h3, by simp, by simp⟩

/-- From WAIT_ACK_LOW to WAIT_BIT_LOW, with the pin an input, reads and delays are valid. -/
theorem validPrims_of_quiet {s : State} {issued : List Prim} (hlow : 0x4#4 ≤ s.pc) (hhigh : s.pc ≤ 0xA#4)
    (hd : s.dir = .input) (hquiet : ∀ p ∈ issued, p.quiet) : ValidPrims s issued := by
  have hne {c : BitVec 4} (hc : c < 0x4#4) : s.pc ≠ c := fun h => absurd (h ▸ hlow) (BitVec.not_le.mpr hc)
  exact ⟨fun l hl => absurd rfl ((hquiet _ hl).2 l), fun h => absurd h (hne (by decide)),
    fun h => absurd h (hne (by decide)), fun _ _ => ⟨hlow, hhigh, hd⟩, fun d hl => absurd rfl ((hquiet _ hl).1 d)⟩

theorem EngineStep.validPrims {s t : State} (h : EngineStep s t) :
    ∃ issued, t.trace = issued ++ s.trace ∧ ValidPrims s issued := by
  have hwait {w : WaitRow} (hw : w ∈ waitTable) (hp : s.pc = w.code) (hd : s.dir = .input) {issued : List Prim}
      (hquiet : ∀ p ∈ issued, p.quiet) : ValidPrims s issued := by
    obtain ⟨hlow, hhigh, -, -⟩ := waitTable_codes hw
    exact validPrims_of_quiet (hp ▸ hlow) (hp ▸ hhigh) hd hquiet
  cases h with
  | startHigh hp =>
    exact ⟨[.delayMs _, .write .high, .setDir .output], rfl, by simp [hp], fun _ => ⟨[.delayMs _], rfl⟩, by simp [hp],
      by simp, by simp [hp]⟩
  | startLow hp _ => exact ⟨[.delayMs _, .write .low], rfl, by constructor <;> simp [hp]⟩
  | startRelease hp _ =>
    exact ⟨[.setDir .input, .delayUs _, .write .high], rfl, by constructor <;> simp [hp]⟩
  | waitEnds w hw hp hd _ | waitFails w hw hp hd _ _ =>
    exact ⟨[.read _], rfl, hwait hw hp hd (by simp [Prim.quiet])⟩
  | waitGoesOn w hw hp hd _ _ => exact ⟨[.delayUs _, .read _], rfl, hwait hw hp hd (by simp [Prim.quiet])⟩
  | sampledHigh hp hd _ | sampledLow hp hd _ =>
    exact ⟨[.read _, .delayUs _], rfl,
      validPrims_of_quiet (by simp [hp]) (by simp [hp]) hd (by simp [Prim.quiet])⟩
  | bitTail hp => exact ⟨[.delayUs _], rfl, by constructor <;> simp [hp]⟩
  | idle hp | bitShifted hp _ | byteStored hp _ _ _ | doneAcquire hp _ | doneReadSensor hp _ =>
    exact ⟨[], by simp, validPrims_nil (by simp [hp]) (by simp [hp])⟩

theorem HostStep.trace_eq {base : Nat} {a : Access} {s t : State} (h : HostStep base a s t) : t.trace = s.trace := by
  cases h <;> simp

/-- A turn that is not the engine's issues nothing (R56, R240). -/
theorem step_trace_of_not_engineTurn {s t : State} (h : step s = .next t) (hturn : ¬ engineTurn s) :
    t.trace = s.trace := by
  obtain ⟨-, ⟨he, -⟩ | ⟨a, rest, -, ha⟩ | ⟨rest, -, rfl⟩ | ⟨rest, -, rfl⟩⟩ := step_cases h
  · exact absurd he hturn
  · exact ha.trace_eq
  · rfl
  · rfl

/-- Settles O5: the invariant gives each turn a next state, and each engine step issues what its state may. -/
theorem lineDriverNeverMisused : Obligations.LineDriverNeverMisused := by
  refine ⟨fun _ f hs => step_ne_fault f hs, fun s t _ h => ?issued⟩
  case issued =>
    by_cases hturn : engineTurn s
    · obtain ⟨issued, htrace, hv⟩ := (engineStep_of_step h hturn).validPrims
      exact ⟨issued, htrace, hv.writes, fun hp _ => hv.driven hp, fun hp _ => hv.released hp, hv.reads, hv.turnsPin⟩
    · exact ⟨[], step_trace_of_not_engineTurn h hturn, by simp, fun _ he => absurd he hturn,
        fun _ he => absurd he hturn, by simp, by simp⟩

/-! ### Runs of a wait -/

/-- Runs compose. -/
theorem reaches_add {j k : Nat} {s u t : State} (h : reaches j s u) (h' : reaches k u t) : reaches (j + k) s t := by
  induction j generalizing s with
  | zero => rw [reaches_zero_iff.mp h, Nat.zero_add]; exact h'
  | succ j ih =>
    obtain ⟨v, hv, h⟩ := reaches_succ_iff.mp h
    rw [Nat.add_right_comm]
    exact reaches_succ_iff.mpr ⟨v, hv, ih h⟩

theorem reaches_one {s t : State} (hc : CodesOk s) (ht : s.turns = []) (h : EngineStep s t) : reaches 1 s t :=
  reaches_succ_iff.mpr ⟨t, (step_eq_next_iff hc ht).mpr h, reaches_zero_iff.mpr rfl⟩

theorem otherLevel_ne (l : Level) : otherLevel l ≠ l := by cases l <;> decide

theorem exhausted_mono {b : Config.Bound} {m n : Nat} (hle : m ≤ n) (h : exhausted b n = false) :
    exhausted b m = false := by
  rw [exhausted_eq_false_iff] at *
  exact h.imp_right fun ⟨k, hk, hn⟩ => ⟨k, hk, Nat.lt_of_le_of_lt hle hn⟩

/-- The state after `n` reads of the other level in a wait, with `rest` the levels to come. -/
def State.waited (s : State) (n : Nat) (other : Level) (rest : List Level) : State :=
  { s with
    poll := s.poll + n, script := rest, draws := s.draws + n
    trace := (List.replicate n [Prim.delayUs s.cfg.pollUs, .read other]).flatten ++ s.trace }

/-- A wait that reads the other level goes on while its bound allows (R135). -/
theorem reaches_waited {w : WaitRow} {s : State} {n : Nat} {rest : List Level} (hw : w ∈ waitTable) (hc : CodesOk s)
    (hp : s.pc = w.code) (hd : s.dir = .input) (ht : s.turns = [])
    (hscript : s.script = List.replicate n (otherLevel w.target) ++ rest)
    (he : exhausted (w.bound s.cfg) (s.poll + n) = false) :
    reaches n s (s.waited n (otherLevel w.target) rest) := by
  induction n generalizing s with
  | zero =>
    refine reaches_zero_iff.mpr ?_
    simp [State.waited, ← show s.script = rest from hscript]
  | succ n ih =>
    have hl : s.nextLevel = otherLevel w.target := nextLevel_cons hscript
    have hne : s.nextLevel ≠ w.target := hl ▸ otherLevel_ne _
    have hgo := EngineStep.waitGoesOn w hw hp hd hne (exhausted_mono (by omega) he)
    refine reaches_succ_iff.mpr ⟨_, (step_eq_next_iff hc ht).mpr hgo, ?_⟩
    have hrest := ih (hgo.codesOk hc) hp hd ht (by simp [hscript, List.replicate_succ])
      (by simpa [Nat.add_assoc, Nat.add_comm 1] using he)
    convert hrest using 1
    simp [State.waited, hl, List.replicate_succ', Nat.add_comm, Nat.add_left_comm]

/-- A wait from poll 0 whose `n + 1`-th read is the first of its target ends after that read (R135). -/
theorem reaches_waitEnd {w : WaitRow} {s : State} {n : Nat} {rest : List Level} (hw : w ∈ waitTable) (hc : CodesOk s)
    (hp : s.pc = w.code) (h0 : s.poll = 0) (hd : s.dir = .input) (ht : s.turns = [])
    (hscript : s.script = waitLevels n w.target ++ rest) (he : exhausted (w.bound s.cfg) n = false) :
    reaches (n + 1) s
      { s with
        pc := w.following, script := rest, draws := s.draws + (n + 1)
        trace := .read w.target ::
          (List.replicate n [Prim.delayUs s.cfg.pollUs, .read (otherLevel w.target)]).flatten ++ s.trace } := by
  have hwaited := reaches_waited (n := n) (rest := w.target :: rest) hw hc hp hd ht (by simp [hscript, waitLevels])
    (by rw [h0, Nat.zero_add]; exact he)
  have hl : (s.waited n (otherLevel w.target) (w.target :: rest)).nextLevel = w.target := rfl
  have hend := reaches_add hwaited (reaches_one hc ht (.waitEnds w hw hp hd hl))
  convert hend using 1
  simp [State.waited, tookLevel, issue, State.nextLevel, h0, Nat.add_assoc]

/-- A wait from poll 0 whose bound is `n + 1` fails after that many reads of the other level, with no delay after the
last (R135). -/
theorem reaches_waitFailure {w : WaitRow} {s : State} {n : Nat} {rest : List Level} (hw : w ∈ waitTable)
    (hc : CodesOk s) (hp : s.pc = w.code) (h0 : s.poll = 0) (hd : s.dir = .input) (ht : s.turns = [])
    (hscript : s.script = List.replicate (n + 1) (otherLevel w.target) ++ rest)
    (hb : w.bound s.cfg = .reads (n + 1)) :
    reaches (n + 1) s
      { s with
        pc := 0x0#4, poll := n + 1, result := failCode w.kind, script := rest, draws := s.draws + (n + 1)
        trace := .read (otherLevel w.target) ::
          (List.replicate n [Prim.delayUs s.cfg.pollUs, .read (otherLevel w.target)]).flatten ++ s.trace } := by
  have hwaited := reaches_waited (n := n) (rest := otherLevel w.target :: rest) hw hc hp hd ht
    (by simp [hscript, List.replicate_succ'])
    (by simp [h0, hb, exhausted])
  have hl : (s.waited n (otherLevel w.target) (otherLevel w.target :: rest)).nextLevel ≠ w.target := otherLevel_ne _
  have hlast : exhausted (w.bound s.cfg) (s.poll + n + 1) = true := by simp [h0, hb, exhausted]
  have hend := reaches_add hwaited (reaches_one hc ht (.waitFails w hw hp hd hl hlast))
  convert hend using 1
  simp [State.waited, tookLevel, issue, State.nextLevel, h0, Nat.add_assoc]

/-- An engine step that enters a wait leaves poll 0 (R23). -/
theorem EngineStep.poll_of_entry {s t : State} (h : EngineStep s t) (hne : t.pc ≠ s.pc) {w : WaitRow}
    (hw : w ∈ waitTable) (hp : t.pc = w.code) : t.poll = 0 := by
  cases h with
  | idle _ | waitGoesOn _ _ _ _ _ _ => exact absurd rfl hne
  | startRelease _ _ | waitEnds _ _ _ _ _ | bitTail _ => rfl
  | bitShifted _ _ | byteStored _ _ _ _ =>
    rw [afterCommit_pc] at hp
    unfold afterCommit
    split
    · fin_cases hw <;> simp_all
    · rfl
  | startHigh _ | startLow _ _ | waitFails _ _ _ _ _ _ | sampledHigh _ _ _ | sampledLow _ _ _ | doneAcquire _ _
  | doneReadSensor _ _ => fin_cases hw <;> simp at hp

theorem step_poll_of_entry {s t : State} (h : step s = .next t) (hne : t.pc ≠ s.pc) {w : WaitRow}
    (hw : w ∈ waitTable) (hp : t.pc = w.code) : t.poll = 0 := by
  obtain ⟨-, ⟨-, he⟩ | ⟨a, rest, -, ha⟩ | ⟨rest, -, rfl⟩ | ⟨rest, -, rfl⟩⟩ := step_cases h
  · exact he.poll_of_entry hne hw hp
  · cases ha with
    | accepted _ _ _ _ _ => rfl
    | _ => exact absurd (by simp) hne
  · exact absurd rfl hne
  · rfl

/-- Settles O30: one iteration, a run to the target, a run to the bound, and poll 0 on entry. -/
theorem waitEndsAtTheTargetOrTheBound : Obligations.WaitEndsAtTheTargetOrTheBound := by
  refine ⟨fun w s hw hd => ?iteration, fun w s n rest hw hc hp h0 hd ht => ⟨fun hs hb => ?target, fun hs hb => ?bound⟩,
    fun s t h hne ⟨w, hw, hp⟩ => step_poll_of_entry h hne hw hp⟩
  case iteration => exact exec_wait_input hw hd
  case target => exact reaches_waitEnd hw hc hp h0 hd ht hs ((exhausted_eq_false_iff _ _).mpr hb)
  case bound => exact reaches_waitFailure hw hc hp h0 hd ht hs hb

/-! ### The bits received -/

/-- The low `n` bits of a word, the highest first: the order of transmission (R73). -/
def msbFirst {w : Nat} (n : Nat) (x : BitVec w) : List Bool :=
  (List.range n).map fun k => x.getLsbD (n - 1 - k)

@[simp] theorem msbFirst_length {w : Nat} (n : Nat) (x : BitVec w) : (msbFirst n x).length = n := by simp [msbFirst]

@[simp] theorem frameBits_length (f : Frame) : (frameBits f).length = 40 := msbFirst_length 40 f

@[simp] theorem msbFirst_zero {w : Nat} (x : BitVec w) : msbFirst 0 x = [] := rfl

theorem msbFirst_append {m n : Nat} (x : BitVec m) (y : BitVec n) :
    msbFirst (m + n) (x ++ y) = msbFirst m x ++ msbFirst n y := by
  simp only [msbFirst, List.range_add, List.map_append, List.map_map, BitVec.getLsbD_append]
  congr 1
  · refine List.map_congr_left fun k hk => ?_
    have hk := List.mem_range.mp hk
    rw [if_neg (by omega)]
    congr 1
    omega
  · refine List.map_congr_left fun k hk => ?_
    have hk := List.mem_range.mp hk
    simp only [Function.comp]
    rw [if_pos (by omega)]
    congr 1
    omega

/-- A word is its bits. -/
theorem eq_of_msbFirst_eq {w : Nat} {x y : BitVec w} (h : msbFirst w x = msbFirst w y) : x = y := by
  refine BitVec.eq_of_getLsbD_eq fun i hi => ?_
  have hbit := List.map_inj_left.mp h (w - 1 - i) (List.mem_range.mpr (by omega))
  rwa [show w - 1 - (w - 1 - i) = i by omega] at hbit

/-- A bit shifted in comes after the bits already in the accumulator (R143). -/
theorem msbFirst_shiftIn {n : Nat} (acc : Byte) (b : BitVec 1) (hn : n ≤ 7) :
    msbFirst (n + 1) (shiftIn acc b) = msbFirst n acc ++ [decide (b = 1#1)] := by
  simp only [msbFirst, List.range_succ, List.map_append, shiftIn]
  congr 1
  · refine List.map_congr_left fun k hk => ?_
    have hk := List.mem_range.mp hk
    have hb : b.getLsbD (n - k) = false := BitVec.getLsbD_of_ge b _ (by omega)
    simp [hb, show n - k < 8 by omega, show n - k ≠ 0 by omega, show n - k - 1 = n - 1 - k by omega]
    rfl
  · obtain rfl | rfl := BitVec.eq_zero_or_eq_one b <;> simp

/-- The five bytes of the buffer, in transmission order (R24). -/
def FrameBuffer.bytes (b : FrameBuffer) : List Byte := [b.b0, b.b1, b.b2, b.b3, b.b4]

@[simp] theorem bytes_length (b : FrameBuffer) : b.bytes.length = 5 := rfl

theorem flatMap_bytes (b : FrameBuffer) : b.bytes.flatMap (msbFirst 8) = frameBits b.frame := by
  show _ = msbFirst (8 + 8 + 8 + 8 + 8) (b.b0 ++ b.b1 ++ b.b2 ++ b.b3 ++ b.b4)
  simp only [msbFirst_append, FrameBuffer.bytes, List.flatMap_cons, List.flatMap_nil, List.append_assoc,
    List.append_nil]

/-- Storing at `i` puts the byte after the first `i`. -/
theorem take_bytes_store {b b' : FrameBuffer} {i : BitVec 3} {v : Byte} (h : b.store i v = some b') :
    b'.bytes.take (i.toNat + 1) = b.bytes.take i.toNat ++ [v] := by
  unfold FrameBuffer.store at h
  split at h
  case h_6 => cases h
  all_goals
    next hi => cases h; rw [hi]; rfl

/-- The bits received so far, in transmission order: the bytes stored, then the bits in the accumulator (R24, R25). -/
def State.received (s : State) : List Bool :=
  (s.buf.bytes.take s.bidx.toNat).flatMap (msbFirst 8) ++ msbFirst s.nbit.toNat s.acc

theorem received_congr {s t : State} (hbuf : t.buf = s.buf) (hbidx : t.bidx = s.bidx) (hnbit : t.nbit = s.nbit)
    (hacc : t.acc = s.acc) : t.received = s.received := by
  rw [State.received, hbuf, hbidx, hnbit, hacc, State.received]

theorem received_nil {s : State} (hi : s.bidx = 0#3) (hn : s.nbit = 0#4) : s.received = [] := by
  simp [State.received, hi, hn]

theorem received_full {s : State} (hi : s.bidx = 5#3) (hn : s.nbit = 0#4) : s.received = frameBits s.buf.frame := by
  rw [State.received, hi, hn, ← flatMap_bytes]
  simp [FrameBuffer.bytes]

theorem received_length {s : State} (hi : s.bidx ≤ 5#3) : s.received.length = 8 * s.bidx.toNat + s.nbit.toNat := by
  have hi : s.bidx.toNat ≤ 5 := hi
  have hbytes (l : List Byte) : (l.flatMap (msbFirst 8)).length = 8 * l.length := by
    simp [List.length_flatMap, Nat.mul_comm]
  rw [State.received, List.length_append, hbytes, List.length_take, bytes_length, msbFirst_length, Nat.min_eq_left hi]

theorem afterCommit_poll {s : State} (h : s.poll = 0) : (afterCommit s).poll = 0 := by
  unfold afterCommit
  split
  · exact h
  · rfl

@[simp] theorem received_afterCommit (s : State) : (afterCommit s).received = s.received :=
  received_congr (by simp) (by simp) (by simp) (by simp)

/-- Only BIT_COMMIT receives a bit, the one sampled last (R143). -/
theorem EngineStep.received_eq {s t : State} (h : EngineStep s t) (hs : BufferOk s) :
    t.received = if s.pc = StateCode.bitCommit then s.received ++ [decide (s.sbit = 1#1)] else s.received := by
  obtain ⟨-, hn7, -⟩ := hs
  have hn7 : s.nbit.toNat ≤ 7 := hn7
  have hkept (hp : s.pc ≠ StateCode.bitCommit) (ht : t.received = s.received) :
      t.received = if s.pc = StateCode.bitCommit then s.received ++ [decide (s.sbit = 1#1)] else s.received :=
    ht.trans (if_neg hp).symm
  cases h with
  | bitShifted hp hn =>
    have hsucc : (s.nbit + 1#4).toNat = s.nbit.toNat + 1 := by bv_omega
    rw [if_pos hp, received_afterCommit, State.received, State.received]
    simp only [hsucc, msbFirst_shiftIn s.acc s.sbit hn7, List.append_assoc]
  | byteStored hp hn b hb =>
    have h7 : s.nbit.toNat = 7 := by bv_omega
    have hi : s.bidx ≤ 4#3 := (store_isSome_iff s.buf s.bidx _).mp (by rw [hb]; rfl)
    have hsucc : (s.bidx + 1#3).toNat = s.bidx.toNat + 1 := by bv_omega
    rw [if_pos hp, received_afterCommit, State.received, State.received]
    simp [hsucc, h7, take_bytes_store hb, msbFirst_shiftIn s.acc s.sbit (Nat.le_refl 7)]
  | waitEnds w hw hp _ _ | waitFails w hw hp _ _ _ | waitGoesOn w hw hp _ _ _ =>
    refine hkept ?_ rfl
    rw [hp]
    fin_cases hw <;> simp
  | idle hp | startHigh hp | startLow hp _ | startRelease hp _ | sampledHigh hp _ _ | sampledLow hp _ _ | bitTail hp
  | doneAcquire hp _ | doneReadSensor hp _ =>
    exact hkept (by simp [hp]) (received_congr (by simp) (by simp) (by simp) (by simp))

/-! ### The start of a transaction -/

/-- The state after START_HIGH of a transaction just accepted. -/
def State.started (m : BitVec 1) (s : State) : State :=
  { acceptTransaction m s with
    dir := .output, drv := .high, pc := StateCode.startLow
    trace := .delayMs s.cfg.tIdleMs :: .write .high :: .setDir .output :: s.trace }

/-- Acceptance leads to `started` from every idle block, whatever its line was before. -/
theorem engineStep_started (m : BitVec 1) (s : State) : EngineStep (acceptTransaction m s) (s.started m) :=
  .startHigh rfl

theorem safeState_started {s : State} (m : BitVec 1) (hc : configLegal s.cfg = true) : SafeState (s.started m) :=
  ⟨⟨hc, rfl, rfl⟩, by simp [LineOk, State.started], fun _ => rfl, by simp [BufferOk, State.started],
    by simp [SampleOk, State.started], pollOk_zero hc rfl⟩

/-! ### The transaction on a script -/

/-- The engine stands at `code` in a transaction with parameters `p`: it has received `bits`, and `levels` come next. -/
structure Receiving (p : Config.Params) (code : BitVec 4) (bits : List Bool) (levels : List Level) (s : State) :
    Prop where
  safe : SafeState s
  noTurn : s.turns = []
  cfg : s.cfg = p
  pc : s.pc = code
  poll : s.poll = 0
  received : s.received = bits
  script : s.script = levels

section Receiving

variable {p : Config.Params} {code : BitVec 4} {bits : List Bool} {levels : List Level} {s t : State}

theorem Receiving.engineStep (hs : Receiving p code bits levels s) : ∃ t, EngineStep s t := hs.safe.engineStep

/-- The pin is an input from WAIT_ACK_LOW on. -/
theorem Receiving.dir (hs : Receiving p code bits levels s) (hcode : 0x4#4 ≤ code) : s.dir = .input :=
  hs.safe.dir_input (hs.pc ▸ hcode)

/-- One engine step of a transaction: the invariant, the parameters and the turns take care of themselves. -/
theorem Receiving.step (hs : Receiving p code bits levels s) (h : EngineStep s t) {code' : BitVec 4} {bits' : List Bool}
    {levels' : List Level} (hpc : t.pc = code') (hpoll : t.poll = 0) (hbits : t.received = bits')
    (hscript : t.script = levels') : reaches 1 s t ∧ Receiving p code' bits' levels' t :=
  ⟨reaches_one hs.safe.codesOk hs.noTurn h,
    ⟨h.safeState hs.safe, h.turns_eq.trans hs.noTurn, h.cfg_eq.trans hs.cfg, hpc, hpoll, hbits, hscript⟩⟩

/-- A wait whose target is read within its bound (R135). -/
theorem Receiving.wait {w : WaitRow} {n : Nat} (hw : w ∈ waitTable)
    (hs : Receiving p w.code bits (waitLevels n w.target ++ levels) s) (he : exhausted (w.bound p) n = false) :
    ∃ t, reaches (n + 1) s t ∧ Receiving p w.following bits levels t ∧ t.sbit = s.sbit := by
  have hc : CodesOk s := hs.safe.codesOk
  have hrun := reaches_waitEnd hw hc hs.pc hs.poll (hs.dir (waitTable_codes hw).1) hs.noTurn hs.script (hs.cfg ▸ he)
  have hsafe := reaches_keeps (P := SafeState) EngineStep.safeState hc hs.noTurn hrun hs.safe
  exact ⟨_, hrun, ⟨hsafe, hs.noTurn, hs.cfg, rfl, hs.poll, hs.received, rfl⟩, rfl⟩

theorem Receiving.sampleHigh (hs : Receiving p StateCode.bitSample bits (.high :: levels) s) :
    ∃ t, reaches 1 s t ∧ Receiving p StateCode.bitTail bits levels t :=
  ⟨_, hs.step (.sampledHigh hs.pc (hs.dir (by decide)) (nextLevel_cons hs.script)) rfl hs.poll hs.received
    (by simp [hs.script])⟩

theorem Receiving.sampleLow (hs : Receiving p StateCode.bitSample bits (.low :: levels) s) :
    ∃ t, reaches 1 s t ∧ Receiving p StateCode.bitCommit bits levels t ∧ t.sbit = 0#1 :=
  ⟨_, (hs.step (.sampledLow hs.pc (hs.dir (by decide)) (nextLevel_cons hs.script)) rfl hs.poll hs.received
    (by simp [hs.script])).imp_right fun h => ⟨h, rfl⟩⟩

theorem Receiving.tail (hs : Receiving p StateCode.bitTail bits levels s) :
    ∃ t, reaches 1 s t ∧ Receiving p StateCode.waitBitLow bits levels t :=
  ⟨_, hs.step (.bitTail hs.pc) rfl rfl hs.received hs.script⟩

/-- Where the engine stands once `bits` are received: at the next bit, or in DONE after the fortieth (R143). -/
def codeAfter (bits : List Bool) : BitVec 4 :=
  if bits.length = 40 then StateCode.done else StateCode.waitBitHigh

/-- While a bit is being received, fewer than 40 are there. -/
theorem received_length_lt (hs : BufferOk s) (hlow : StateCode.waitBitHigh ≤ s.pc)
    (hhigh : s.pc ≤ StateCode.bitCommit) : s.received.length < 40 := by
  obtain ⟨hi, hn, -, -, hplace, -⟩ := hs
  have hplace : s.bidx.toNat ≤ 4 := hplace hlow hhigh
  have hn : s.nbit.toNat ≤ 7 := hn
  rw [received_length hi]
  omega

/-- The bits received select the successor of BIT_COMMIT. -/
theorem EngineStep.pc_eq_codeAfter (h : EngineStep s t) (hp : s.pc = StateCode.bitCommit) (hs : BufferOk s) :
    t.pc = codeAfter t.received := by
  obtain ⟨hi, hn, -, -, -, hdone⟩ := h.bufferOk hs
  have hpc := h.pc_of_bitCommit hp
  have hlen := received_length hi
  by_cases h5 : t.bidx = 5#3
  · obtain ⟨-, h0⟩ := hdone (by rw [hpc, if_pos h5])
    rw [hpc, if_pos h5, codeAfter, if_pos (by simp [hlen, h5, h0])]
  · have hshort : t.received.length ≠ 40 := by bv_omega
    rw [hpc, if_neg h5, codeAfter, if_neg hshort]

theorem Receiving.commit {b : Bool} (hs : Receiving p StateCode.bitCommit bits levels s)
    (hb : decide (s.sbit = 1#1) = b) :
    ∃ t, reaches 1 s t ∧ Receiving p (codeAfter (bits ++ [b])) (bits ++ [b]) levels t := by
  obtain ⟨t, h⟩ := hs.engineStep
  have hbuffer : BufferOk s := hs.safe.bufferOk
  have hbits : t.received = bits ++ [b] := by rw [h.received_eq hbuffer, if_pos hs.pc, hs.received, hb]
  obtain ⟨u, hu, hpoll, hscript, -⟩ := h.exists_afterCommit hs.pc
  refine ⟨t, hs.step h (hbits ▸ h.pc_eq_codeAfter hs.pc hbuffer) ?_ hbits ?_⟩
  · rw [hu, afterCommit_poll (hpoll.trans hs.poll)]
  · rw [hu, afterCommit_script, hscript, hs.script]

/-- One bit of the script is received as it was sent (R139 to R143). -/
theorem Receiving.bit {w : BitWaits} {b : Bool}
    (hs : Receiving p StateCode.waitBitHigh bits (bitLevels w b ++ levels) s)
    (hrise : exhausted p.waitPolls w.rise = false) (hfall : exhausted p.waitPolls w.fall = false) :
    ∃ t, reaches (bitSteps w b) s t ∧ Receiving p (codeAfter (bits ++ [b])) (bits ++ [b]) levels t := by
  rw [bitLevels, List.append_assoc] at hs
  obtain ⟨u, hrun, hu, -⟩ := Receiving.wait (w := ⟨.waitBitHigh, 0x7#4, .high, .timeout, 0x8#4⟩) (by decide) hs hrise
  cases b with
  | false =>
    obtain ⟨v, hsample, hv, hbit⟩ := hu.sampleLow
    obtain ⟨t, hcommit, ht⟩ := hv.commit (b := false) (by simp [hbit])
    have hsteps := reaches_add (reaches_add hrun hsample) hcommit
    exact ⟨t, hsteps, ht⟩
  | true =>
    obtain ⟨v, hsample, hv⟩ := hu.sampleHigh
    obtain ⟨x, htail, hx⟩ := hv.tail
    obtain ⟨y, hlow, hy, hbit⟩ :=
      Receiving.wait (w := ⟨.waitBitLow, 0xA#4, .low, .timeout, 0xB#4⟩) (by decide) hx hfall
    have hone : x.sbit = 1#1 := hx.safe.sampleOk (.inr hx.pc)
    obtain ⟨t, hcommit, ht⟩ := hy.commit (b := true) (by simp [hbit, hone])
    exact ⟨t, reaches_add (reaches_add (reaches_add hrun hsample) (reaches_add htail hlow)) hcommit, ht⟩

/-- The bits of the script that are left, down to DONE. -/
theorem Receiving.data {ws : List BitWaits} {bs : List Bool}
    (hs : Receiving p (codeAfter bits) bits (dataLevels ws bs ++ levels) s) (hlen : ws.length = bs.length)
    (htotal : bits.length + bs.length = 40)
    (hw : ∀ w ∈ ws, exhausted p.waitPolls w.rise = false ∧ exhausted p.waitPolls w.fall = false) :
    ∃ t, reaches (dataSteps ws bs) s t ∧ Receiving p StateCode.done (bits ++ bs) levels t := by
  induction bs generalizing ws bits s with
  | nil =>
    obtain rfl : ws = [] := List.eq_nil_of_length_eq_zero hlen
    rw [codeAfter, if_pos (by simpa using htotal)] at hs
    exact ⟨s, reaches_zero_iff.mpr rfl, by rw [List.append_nil]; exact hs⟩
  | cons b bs ih =>
    obtain ⟨w, ws, rfl⟩ := List.exists_cons_of_length_eq_add_one hlen
    rw [List.length_cons] at htotal
    rw [codeAfter, if_neg (by omega), dataLevels, List.append_assoc] at hs
    obtain ⟨hrise, hfall⟩ := hw w (by simp)
    obtain ⟨u, hbit, hu⟩ := hs.bit hrise hfall
    obtain ⟨t, hrest, ht⟩ := ih hu (by simpa using hlen) (by simp; omega) fun v hv => hw v (by simp [hv])
    exact ⟨t, reaches_add hbit hrest, by simpa using ht⟩

end Receiving

/-- The start signal of a transaction just accepted (R132 to R134). -/
theorem receiving_start {s : State} (m : BitVec 1) (hc : configLegal s.cfg = true) (hturns : s.turns = []) :
    ∃ t, reaches 3 (acceptTransaction m s) t ∧ Receiving s.cfg StateCode.waitAckLow [] s.script t := by
  have hhigh := reaches_one (codesOk_acceptTransaction m hc) hturns (engineStep_started m s)
  have hs : Receiving s.cfg StateCode.startLow [] s.script (s.started m) :=
    ⟨safeState_started m hc, hturns, rfl, rfl, rfl, rfl, rfl⟩
  obtain ⟨hlow, hs⟩ := hs.step (.startLow rfl rfl) rfl rfl rfl rfl
  obtain ⟨hrelease, hs⟩ := hs.step (.startRelease rfl rfl) rfl rfl rfl rfl
  exact ⟨_, reaches_add (reaches_add hhigh hlow) hrelease, hs⟩

/-- A transaction on the script of a frame stands in DONE with the frame's bits received, one step before its end. -/
theorem receiving_transaction {s : State} (m : BitVec 1) {f : Frame} {ack high low : Nat} {ws : List BitWaits}
    {rest : List Level} (hc : configLegal s.cfg = true) (hturns : s.turns = [])
    (hscript : s.script = transactionLevels ack high low ws f ++ rest) (hws : ws.length = 40)
    (hack : ack < s.cfg.hsPolls) (hhigh : exhausted s.cfg.waitPolls high = false)
    (hlow : exhausted s.cfg.waitPolls low = false)
    (hw : ∀ w ∈ ws, exhausted s.cfg.waitPolls w.rise = false ∧ exhausted s.cfg.waitPolls w.fall = false) :
    ∃ k t, k + 1 = transactionSteps ack high low ws f ∧ reaches k (acceptTransaction m s) t ∧
      Receiving s.cfg StateCode.done (frameBits f) rest t := by
  obtain ⟨s₁, hstart, hs₁⟩ := receiving_start m hc hturns
  rw [hscript, transactionLevels, List.append_assoc, List.append_assoc, List.append_assoc] at hs₁
  obtain ⟨s₂, hrun₁, hs₂, -⟩ := Receiving.wait (w := ⟨.waitAckLow, 0x4#4, .low, .noResponse, 0x5#4⟩) (by decide) hs₁
    (decide_eq_false (Nat.not_le.mpr hack))
  obtain ⟨s₃, hrun₂, hs₃, -⟩ :=
    Receiving.wait (w := ⟨.waitHsHigh, 0x5#4, .high, .timeout, 0x6#4⟩) (by decide) hs₂ hhigh
  obtain ⟨s₄, hrun₃, hs₄, -⟩ := Receiving.wait (w := ⟨.waitHsLow, 0x6#4, .low, .timeout, 0x7#4⟩) (by decide) hs₃ hlow
  obtain ⟨t, hdata, ht⟩ := Receiving.data (bits := []) (bs := frameBits f) hs₄ (by simp [hws]) (by simp) hw
  exact ⟨_, t, rfl, reaches_add (reaches_add (reaches_add (reaches_add hstart hrun₁) hrun₂) hrun₃) hdata, ht⟩

/-- In DONE the bits received are the frame in the buffer. -/
theorem received_done {s : State} (hs : BufferOk s) (hp : s.pc = StateCode.done) :
    s.received = frameBits s.buf.frame := by
  obtain ⟨-, -, -, -, -, hdone⟩ := hs
  obtain ⟨hi, hn⟩ := hdone hp
  exact received_full hi hn

/-- DONE publishes the frame received, and in READ_SENSOR mode its reading (R144). -/
theorem engineStep_of_received {s : State} {f : Frame} (hs : BufferOk s) (hp : s.pc = StateCode.done)
    (hf : s.received = frameBits f) :
    ∃ t, EngineStep s t ∧ t.pc = 0x0#4 ∧ t.frame = f ∧ t.script = s.script ∧
      (s.mode = 0#1 → t.result = 1#3 ∧ t.reading = s.reading) ∧
      (∀ r, s.mode = 1#1 → decodeFrame f = .ok r → t.result = 1#3 ∧ t.reading = readingWord r) ∧
      (s.mode = 1#1 → decodeFrame f = .checksumMismatch → t.result = 4#3 ∧ t.reading = s.reading) := by
  obtain rfl : s.buf.frame = f := eq_of_msbFirst_eq ((received_done hs hp).symm.trans hf)
  by_cases hm : s.mode = 0#1
  · exact ⟨_, .doneAcquire hp hm, rfl, rfl, rfl, fun _ => ⟨rfl, rfl⟩, by simp [hm], by simp [hm]⟩
  · refine ⟨_, .doneReadSensor hp hm, rfl, by simp, by simp, fun h => absurd h hm, fun r _ hr => ?_, fun _ hr => ?_⟩
    · simp [recordDecode_ok _ hr]
    · simp [recordDecode_mismatch _ hr]

/-- Settles O45: the run up to DONE receives the frame's bits, and DONE publishes them. -/
theorem frameReceivedIsTheScriptsFrame : Obligations.FrameReceivedIsTheScriptsFrame := by
  intro s m f ack high low ws rest hc _ hturns hscript hws hack hhigh hlow hw
  obtain ⟨k, u, hk, hrun, hu⟩ := receiving_transaction m hc hturns hscript hws hack hhigh hlow hw
  have hkeeps {P : State → Prop} (hstep : ∀ {a b}, EngineStep a b → P a → P b) (h0 : P (acceptTransaction m s)) : P u :=
    reaches_keeps hstep (codesOk_acceptTransaction m hc) hturns hrun h0
  have hmode : u.mode = m := hkeeps (P := fun t => t.mode = m) (fun he hm => he.mode_eq.trans hm) rfl
  obtain ⟨-, hreading⟩ : u.frame = s.frame ∧ u.reading = s.reading :=
    hkeeps (P := keepsPublished s) EngineStep.keepsPublished (fun _ => ⟨rfl, rfl⟩) (.inl (by simp [hu.pc]))
  obtain ⟨t, he, hidle, hframe, hrest, hacquire, hdecoded, hmismatch⟩ :=
    engineStep_of_received hu.safe.bufferOk hu.pc hu.received
  obtain ⟨hdir, hdrv⟩ := (he.safeState hu.safe).released_of_idle hidle
  rw [hmode, hreading] at hacquire hmismatch
  rw [hmode] at hdecoded
  have hlast := reaches_one hu.safe.codesOk hu.noTurn he
  exact ⟨t, hk ▸ reaches_add hrun hlast, hidle, hframe, hrest.trans hu.script, hdir, hdrv,
    he.cfg_eq.trans hu.cfg, he.turns_eq.trans hu.noTurn, hacquire, hdecoded, hmismatch⟩

/-! ### What a transaction costs -/

/-- The cost of a step: 1 if it reads the line, else `q`. With `q = 1` costs are steps, with `q = 0` they are line
reads. -/
def stepCost (q : Nat) (s t : State) : Nat :=
  if t.draws = s.draws then q else 1

theorem EngineStep.draws_eq_or {s t : State} (h : EngineStep s t) : t.draws = s.draws ∨ t.draws = s.draws + 1 := by
  cases h with
  | waitEnds _ _ _ _ _ | waitFails _ _ _ _ _ _ | waitGoesOn _ _ _ _ _ _ | sampledHigh _ _ _ | sampledLow _ _ _ =>
    exact .inr rfl
  | _ => exact .inl (by simp)

@[simp] theorem stepCost_one (s t : State) : stepCost 1 s t = 1 := ite_self 1

theorem EngineStep.draws_eq {s t : State} (h : EngineStep s t) : t.draws = s.draws + stepCost 0 s t := by
  rcases h.draws_eq_or with hd | hd <;> simp [stepCost, hd]

/-- What the bits received cost at the least: two reads and the step of BIT_COMMIT for each, and for a 1 the step of
BIT_TAIL and a third read (R146). -/
def bitsCost (q : Nat) (bits : List Bool) : Nat :=
  (2 + q) * bits.length + (1 + q) * bits.count true

/-- What a transaction has cost at the least when it stands at `s`, by the way it came: the start signal, one read for
each wait of the handshake, and the bits received. Nothing is claimed of a transaction that has failed. -/
def State.spent (q : Nat) (s : State) : Nat :=
  let bits := 3 * q + 3 + bitsCost q s.received
  if s.pc = StateCode.startLow then q
  else if s.pc = StateCode.startRelease then 2 * q
  else if s.pc = StateCode.waitAckLow then 3 * q
  else if s.pc = StateCode.waitHsHigh then 3 * q + 1
  else if s.pc = StateCode.waitHsLow then 3 * q + 2
  else if s.pc = StateCode.waitBitHigh then bits
  else if s.pc = StateCode.bitSample then bits + 1
  else if s.pc = StateCode.bitTail then bits + 2
  else if s.pc = StateCode.waitBitLow then bits + 2 + q
  else if s.pc = StateCode.bitCommit then bits + 2 + if s.sbit = 1#1 then 1 + q else 0
  else if s.pc = StateCode.done then bits
  else if s.pc = StateCode.idle ∧ (s.result = ResultCode.success ∨ s.result = ResultCode.checksumMismatch) then
    4 * q + 3 + bitsCost q (frameBits s.frame)
  else 0

theorem bitsCost_concat (q : Nat) (bits : List Bool) (b : Bool) :
    bitsCost q (bits ++ [b]) = bitsCost q bits + (2 + q) + if b then 1 + q else 0 := by
  cases b <;> simp [bitsCost, Nat.mul_add] <;> omega

@[simp] theorem bitsCost_nil (q : Nat) : bitsCost q [] = 0 := rfl

/-- A step of BIT_COMMIT reads nothing. -/
theorem stepCost_commit {s t : State} (q : Nat) (h : EngineStep s t) (hp : s.pc = StateCode.bitCommit) :
    stepCost q s t = q := by
  obtain ⟨u, rfl, -, -, hdraws⟩ := h.exists_afterCommit hp
  rw [stepCost, afterCommit_draws, if_pos hdraws]

/-- A step of BIT_COMMIT pays for the bit it receives. -/
theorem spent_commit {q : Nat} {s t : State} (h : EngineStep s t) (hp : s.pc = StateCode.bitCommit) (hs : BufferOk s) :
    t.spent q = s.spent q + q := by
  have hbits : t.received = s.received ++ [decide (s.sbit = 1#1)] := by rw [h.received_eq hs, if_pos hp]
  have ht : t.spent q = 3 * q + 3 + bitsCost q t.received := by
    have hpc := h.pc_eq_codeAfter hp hs
    unfold codeAfter at hpc
    split at hpc <;> simp [State.spent, hpc]
  rw [ht, hbits, bitsCost_concat]
  simp [State.spent, hp]
  omega

/-- No step gains more than it costs. -/
theorem EngineStep.spent_le {q : Nat} {s t : State} (h : EngineStep s t) (hbuffer : BufferOk s) (hsample : SampleOk s) :
    t.spent q ≤ s.spent q + stepCost q s t := by
  by_cases hcommit : s.pc = StateCode.bitCommit
  · rw [spent_commit h hcommit hbuffer, stepCost_commit q h hcommit]
  have hbits : t.received = s.received := by rw [h.received_eq hbuffer, if_neg hcommit]
  have hnone (hlow : StateCode.startHigh ≤ s.pc) (hhigh : s.pc ≤ StateCode.waitHsLow) : s.received = [] := by
    obtain ⟨-, -, -, hempty, -⟩ := hbuffer
    obtain ⟨hi, hn⟩ := hempty hlow hhigh
    exact received_nil hi hn
  unfold State.spent
  rw [hbits]
  cases h with
  | idle _ | waitGoesOn _ _ _ _ _ _ => exact Nat.le_add_right _ _
  | bitShifted hp _ | byteStored hp _ _ _ => exact absurd hp hcommit
  | waitEnds w hw hp _ _ =>
    fin_cases hw
    · simp [hp, stepCost]
    · simp [hp, stepCost]
    · simp [hp, stepCost, hnone]
    · simp [hp, stepCost]
    · simp [hp, stepCost, hsample (.inr hp)]
      omega
  | waitFails w _ _ _ _ _ => rcases failCode_cases w.kind with hk | hk <;> simp [hk]
  | startHigh _ => simp [stepCost]
  | startLow hp _ | startRelease hp _ =>
    simp [hp, stepCost]
    omega
  | sampledHigh hp _ _ | sampledLow hp _ _ | bitTail hp => simp [hp, stepCost]
  | doneAcquire hp _ =>
    simp [hp, stepCost, received_done hbuffer hp]
    omega
  | doneReadSensor hp _ =>
    simp [hp, stepCost, received_done hbuffer hp]
    split <;> omega

/-- A run takes as many steps, and makes as many line reads, as it gains at the least. -/
theorem reaches_spent_le {k : Nat} {s t : State} (hc : CodesOk s) (hturns : s.turns = []) (hbuffer : BufferOk s)
    (hsample : SampleOk s) (h : reaches k s t) :
    t.spent 1 ≤ s.spent 1 + k ∧ s.draws + t.spent 0 ≤ t.draws + s.spent 0 := by
  induction k generalizing s with
  | zero => simp [reaches_zero_iff.mp h]
  | succ k ih =>
    obtain ⟨u, hu, h⟩ := reaches_succ_iff.mp h
    have hu := (step_eq_next_iff hc hturns).mp hu
    obtain ⟨hsteps, hreads⟩ :=
      ih (hu.codesOk hc) (hu.turns_eq.trans hturns) (hu.bufferOk hbuffer) (hu.sampleOk hsample) h
    have hstep := hu.spent_le (q := 1) hbuffer hsample
    have hread := hu.spent_le (q := 0) hbuffer hsample
    have hdraws := hu.draws_eq
    rw [stepCost_one] at hstep
    omega

/-- The levels and the steps of bits without waits are what bits cost at the least (R146). -/
theorem dataLevels_replicate (bs : List Bool) :
    (dataLevels (List.replicate bs.length ⟨0, 0⟩) bs).length = bitsCost 0 bs := by
  induction bs with
  | nil => rfl
  | cons b bs ih =>
    cases b <;> simp [bitsCost, List.replicate_succ, dataLevels, bitLevels, waitLevels, ih] <;> omega

theorem dataSteps_replicate (bs : List Bool) : dataSteps (List.replicate bs.length ⟨0, 0⟩) bs = bitsCost 1 bs := by
  induction bs with
  | nil => rfl
  | cons b bs ih =>
    cases b <;> simp [bitsCost, List.replicate_succ, dataSteps, bitSteps, ih] <;> omega

theorem dataLevels_noWaits (f : Frame) : (dataLevels noWaits (frameBits f)).length = bitsCost 0 (frameBits f) := by
  rw [← dataLevels_replicate, frameBits_length, noWaits]

theorem dataSteps_noWaits (f : Frame) : dataSteps noWaits (frameBits f) = bitsCost 1 (frameBits f) := by
  rw [← dataSteps_replicate, frameBits_length, noWaits]

/-- A run that has moved `pc` started in a well-coded state: no other takes a step. -/
theorem codesOk_of_reaches {k : Nat} {s t : State} (h : reaches k s t) (hne : s.pc ≠ t.pc) : CodesOk s := by
  cases k with
  | zero => exact absurd (congrArg State.pc (reaches_zero_iff.mp h)) hne
  | succ k =>
    obtain ⟨u, hu, -⟩ := reaches_succ_iff.mp h
    exact (step_cases hu).1

/-- Settles O46: bits without waits cost what bits cost at the least, and a run costs at least what it gains. -/
theorem shortestScriptLength : Obligations.ShortestScriptLength := by
  refine ⟨fun f => ⟨?levels, ?steps⟩, fun s t m k _ hturns hrun hend hresult => ?lowerBound⟩
  case levels =>
    simp [shortestScript, transactionLevels, waitLevels, dataLevels_noWaits, bitsCost]
    omega
  case steps =>
    simp [transactionSteps, dataSteps_noWaits, bitsCost]
    omega
  case lowerBound =>
    have hc : CodesOk (acceptTransaction m s) := codesOk_of_reaches hrun (by simp [hend])
    obtain ⟨hsteps, hreads⟩ := reaches_spent_le hc hturns (by simp [BufferOk]) (by simp [SampleOk]) hrun
    have hstart (q : Nat) : (acceptTransaction m s).spent q = 0 := by simp [State.spent]
    have hpublished (q : Nat) : t.spent q = 4 * q + 3 + bitsCost q (frameBits t.frame) := by
      simp [State.spent, hend, hresult]
    simp only [hstart, hpublished, bitsCost, frameBits_length, acceptTransaction_draws] at hsteps hreads
    omega

/-! ### Every transaction ends -/

/-- The most one bit costs: two waits of `w` reads, the sample, BIT_TAIL and BIT_COMMIT (R147). -/
def bitLimit (q w : Nat) : Nat := 2 * w + 1 + 2 * q

/-- The most that is left after the bit being received, with `n` bits received before it: the bits after it, and
DONE. -/
def limitAfterBit (q w n : Nat) : Nat := (39 - n) * bitLimit q w + q

/-- The most a transaction can still cost at `s`, with `WAIT_POLLS = w` (R147). -/
def State.limit (q w : Nat) (s : State) : Nat :=
  let afterBit := limitAfterBit q w s.received.length
  let fromBit := bitLimit q w + afterBit
  if s.pc = StateCode.startHigh then 3 * q + s.cfg.hsPolls + 2 * w + fromBit
  else if s.pc = StateCode.startLow then 2 * q + s.cfg.hsPolls + 2 * w + fromBit
  else if s.pc = StateCode.startRelease then q + s.cfg.hsPolls + 2 * w + fromBit
  else if s.pc = StateCode.waitAckLow then s.cfg.hsPolls - s.poll + 2 * w + fromBit
  else if s.pc = StateCode.waitHsHigh then w - s.poll + w + fromBit
  else if s.pc = StateCode.waitHsLow then w - s.poll + fromBit
  else if s.pc = StateCode.waitBitHigh then w - s.poll + 1 + q + w + q + afterBit
  else if s.pc = StateCode.bitSample then 1 + q + w + q + afterBit
  else if s.pc = StateCode.bitTail then q + w + q + afterBit
  else if s.pc = StateCode.waitBitLow then w - s.poll + q + afterBit
  else if s.pc = StateCode.bitCommit then q + afterBit
  else if s.pc = StateCode.done then q
  else 0

/-- The limit of the next bit, and of those after it. -/
theorem limitAfterBit_succ {q w n : Nat} (hn : n < 39) :
    limitAfterBit q w n = bitLimit q w + limitAfterBit q w (n + 1) := by
  rw [limitAfterBit, limitAfterBit, show 39 - n = (39 - (n + 1)) + 1 by omega, Nat.succ_mul]
  omega

/-- A step of BIT_COMMIT uses up its own part of the limit. -/
theorem limit_commit {q w : Nat} {s t : State} (h : EngineStep s t) (hp : s.pc = StateCode.bitCommit)
    (hs : BufferOk s) : t.limit q w + q ≤ s.limit q w := by
  have hlen : t.received.length = s.received.length + 1 := by rw [h.received_eq hs, if_pos hp, List.length_append]; rfl
  have hlt : s.received.length < 40 := received_length_lt hs (by simp [hp]) (by simp [hp])
  have hpc := h.pc_eq_codeAfter hp hs
  have hcommit : s.limit q w = q + limitAfterBit q w s.received.length := by simp [State.limit, hp]
  rw [hcommit]
  unfold codeAfter at hpc
  split at hpc
  next => simp [State.limit, hpc, limitAfterBit]
  next hmore =>
    rw [limitAfterBit_succ (by omega)]
    simp [State.limit, hpc, hlen, bitLimit]
    omega

theorem exists_bound {p : Config.Params} {w : Nat} (row : WaitRow) (hw : p.waitPolls = .reads w) :
    ∃ n, row.bound p = .reads n := by
  cases hk : row.kind with
  | noResponse => exact ⟨p.hsPolls, by rw [WaitRow.bound, hk]⟩
  | timeout => exact ⟨w, (bound_of_timeout hk p).trans hw⟩

/-- The limit of a wait is the reads left to it, and the limit of its successor. -/
theorem limit_of_wait {q w n : Nat} {s : State} {row : WaitRow} (hrow : row ∈ waitTable) (hp : s.pc = row.code)
    (hw : s.cfg.waitPolls = .reads w) (hn : row.bound s.cfg = .reads n) :
    s.limit q w = n - s.poll + { s with pc := row.following, poll := 0 }.limit q w := by
  have hreceived : { s with pc := row.following, poll := 0 }.received = s.received := rfl
  unfold State.limit
  rw [hreceived]
  fin_cases hrow <;> simp [WaitRow.bound, hw] at hn <;> simp [hp, hn, bitLimit] <;> omega

section Wait

variable {q w : Nat} {s : State} {row : WaitRow} (hrow : row ∈ waitTable) (hp : s.pc = row.code)
  (hw : s.cfg.waitPolls = .reads w) (hpoll : PollOk s)
include hrow hp hw hpoll

theorem limit_waitEnds : { s with pc := row.following, poll := 0 }.limit q w + 1 ≤ s.limit q w := by
  obtain ⟨n, hn⟩ := exists_bound row hw
  have hlt : s.poll < n := by simpa [hn, exhausted] using hpoll.not_exhausted hrow hp
  rw [limit_of_wait hrow hp hw hn]
  omega

theorem limit_waitGoesOn : { s with poll := s.poll + 1 }.limit q w + 1 ≤ s.limit q w := by
  obtain ⟨n, hn⟩ := exists_bound row hw
  have hlt : s.poll < n := by simpa [hn, exhausted] using hpoll.not_exhausted hrow hp
  rw [limit_of_wait hrow hp hw hn, limit_of_wait (s := { s with poll := s.poll + 1 }) hrow hp hw hn]
  dsimp only
  omega

end Wait

/-- Every step of a transaction uses up as much of the limit as it costs. -/
theorem EngineStep.limit_le {q w : Nat} {s t : State} (h : EngineStep s t) (hs : SafeState s)
    (hw : s.cfg.waitPolls = .reads w) (hp : s.pc ≠ StateCode.idle) : t.limit q w + stepCost q s t ≤ s.limit q w := by
  obtain ⟨-, -, -, hbuffer, -, hpoll⟩ := hs
  by_cases hcommit : s.pc = StateCode.bitCommit
  · rw [stepCost_commit q h hcommit]
    exact limit_commit h hcommit hbuffer
  have hbits : t.received = s.received := by rw [h.received_eq hbuffer, if_neg hcommit]
  have hread (hd : t.draws = s.draws + 1) (hle : t.limit q w + 1 ≤ s.limit q w) :
      t.limit q w + stepCost q s t ≤ s.limit q w := by
    rwa [stepCost, if_neg (by omega)]
  cases h with
  | idle hidle => exact absurd hidle hp
  | bitShifted hp _ | byteStored hp _ _ _ => exact absurd hp hcommit
  | waitEnds row hrow hp _ _ => exact hread rfl (limit_waitEnds hrow hp hw hpoll)
  | waitFails row hrow hp _ _ _ =>
    exact hread rfl (Nat.le_trans (by simp [State.limit]) (limit_waitEnds hrow hp hw hpoll))
  | waitGoesOn row hrow hp _ _ _ => exact hread rfl (limit_waitGoesOn hrow hp hw hpoll)
  | startHigh hp | startLow hp _ | startRelease hp _ | bitTail hp =>
    unfold State.limit
    rw [hbits]
    simp [hp, stepCost]
    omega
  | sampledHigh hp _ _ | sampledLow hp _ _ =>
    refine hread rfl ?_
    unfold State.limit
    rw [hbits]
    simp [hp]
  | doneAcquire hp _ | doneReadSensor hp _ => simp [State.limit, hp, stepCost]

/-- With finite bounds a transaction ends within its limits, whatever levels are read (R147). -/
theorem reaches_idle_within {w : Nat} {s : State} (hs : SafeState s) (hturns : s.turns = [])
    (hw : s.cfg.waitPolls = .reads w) :
    ∃ k t, k ≤ s.limit 1 w ∧ reaches k s t ∧ t.pc = StateCode.idle ∧ t.draws ≤ s.draws + s.limit 0 w := by
  induction hn : s.limit 1 w using Nat.strong_induction_on generalizing s with
  | h n ih =>
    by_cases hp : s.pc = StateCode.idle
    · exact ⟨0, s, Nat.zero_le _, reaches_zero_iff.mpr rfl, hp, Nat.le_add_right _ _⟩
    · obtain ⟨u, hu⟩ := hs.engineStep
      have hstep := hu.limit_le (q := 1) hs hw hp
      have hread := hu.limit_le (q := 0) hs hw hp
      have hdraws := hu.draws_eq
      rw [stepCost_one] at hstep
      obtain ⟨k, t, hk, hrun, hend, ht⟩ :=
        ih _ (by omega) (hu.safeState hs) (hu.turns_eq.trans hturns) (hu.cfg_eq ▸ hw) rfl
      have hfirst := (step_eq_next_iff hs.codesOk hturns).mpr hu
      exact ⟨k + 1, t, by omega, reaches_succ_iff.mpr ⟨u, hfirst, hrun⟩, hend, by omega⟩

theorem limit_started (q w : Nat) (m : BitVec 1) (s : State) :
    (s.started m).limit q w = 2 * q + s.cfg.hsPolls + 2 * w + 40 * bitLimit q w + q := by
  have hnone : (s.started m).received = [] := received_nil rfl rfl
  rw [State.limit, hnone]
  simp [State.started, limitAfterBit]
  omega

/-- Settles O44: one step to `started`, and from there the limits of the rest of the transaction. -/
theorem everyTransactionEnds : Obligations.EveryTransactionEnds := by
  intro s m w hc hw _ hturns
  obtain ⟨k, t, hk, hrun, hend, ht⟩ :=
    reaches_idle_within (s := s.started m) (safeState_started m hc) hturns hw
  have hfirst := reaches_one (codesOk_acceptTransaction m hc) hturns (engineStep_started m s)
  have hdraws : (s.started m).draws = s.draws := rfl
  rw [limit_started, bitLimit] at hk ht
  exact ⟨1 + k, t, by omega, reaches_add hfirst hrun, hend, by omega⟩

end Sys2Proof.Machine
end

section
/-! PROOFS, family 42_frame_decoder.md: the bytes of a frame, the two fields, and the decoder as the inverse of the
encoder (R170 to R180). -/

namespace Sys2Proof.Machine

/-! ### The five bytes of a frame -/

theorem append_byte_toNat {w : Nat} (x : BitVec w) (b : Byte) : (x ++ b).toNat = x.toNat * 256 + b.toNat := by
  rw [BitVec.toNat_append, ← Nat.shiftLeft_add_eq_or_of_lt b.isLt, Nat.shiftLeft_eq]

theorem extract_toNat {w : Nat} (x : BitVec w) (start len : Nat) :
    (x.extractLsb' start len).toNat = x.toNat / 2 ^ start % 2 ^ len := by
  rw [BitVec.extractLsb'_toNat, Nat.shiftRight_eq_div_pow]

theorem frameOfBytes_toNat (b0 b1 b2 b3 b4 : Byte) : (frameOfBytes b0 b1 b2 b3 b4).toNat =
    (((b0.toNat * 256 + b1.toNat) * 256 + b2.toNat) * 256 + b3.toNat) * 256 + b4.toNat := by
  simp only [frameOfBytes, append_byte_toNat]

theorem extract_eq_byte {w start : Nat} {x : BitVec w} {b : Byte} (h : x.toNat / 2 ^ start % 2 ^ 8 = b.toNat) :
    x.extractLsb' start 8 = b :=
  BitVec.eq_of_toNat_eq ((extract_toNat x start 8).trans h)

section Bytes
variable (b0 b1 b2 b3 b4 : Byte)

@[simp] theorem humidityHigh_frameOfBytes : humidityHigh (frameOfBytes b0 b1 b2 b3 b4) = b0 :=
  extract_eq_byte (by rw [frameOfBytes_toNat]; omega)

@[simp] theorem humidityLow_frameOfBytes : humidityLow (frameOfBytes b0 b1 b2 b3 b4) = b1 :=
  extract_eq_byte (by rw [frameOfBytes_toNat]; omega)

@[simp] theorem temperatureHigh_frameOfBytes : temperatureHigh (frameOfBytes b0 b1 b2 b3 b4) = b2 :=
  extract_eq_byte (by rw [frameOfBytes_toNat]; omega)

@[simp] theorem temperatureLow_frameOfBytes : temperatureLow (frameOfBytes b0 b1 b2 b3 b4) = b3 :=
  extract_eq_byte (by rw [frameOfBytes_toNat]; omega)

@[simp] theorem checksumByte_frameOfBytes : checksumByte (frameOfBytes b0 b1 b2 b3 b4) = b4 :=
  extract_eq_byte (by rw [frameOfBytes_toNat]; omega)

end Bytes

/-- A frame is its five bytes (R72, R170). -/
theorem frameOfBytes_bytes (f : Frame) :
    frameOfBytes (humidityHigh f) (humidityLow f) (temperatureHigh f) (temperatureLow f) (checksumByte f) = f := by
  apply BitVec.eq_of_toNat_eq
  simp only [frameOfBytes_toNat, humidityHigh, humidityLow, temperatureHigh, temperatureLow, checksumByte,
    extract_toNat]
  omega

/-! ### The 16-bit fields -/

theorem field16_eq_append (hi lo : Byte) : field16 hi lo = hi ++ lo := by
  rw [field16, BitVec.append_def, BitVec.shiftLeftZeroExtend_eq, BitVec.setWidth'_eq]

theorem field16_toNat (hi lo : Byte) : (field16 hi lo).toNat = hi.toNat * 256 + lo.toNat := by
  rw [field16_eq_append, append_byte_toNat]

@[simp] theorem field16_highByte (hi lo : Byte) : (field16 hi lo).extractLsb' 8 8 = hi :=
  extract_eq_byte (by rw [field16_toNat]; omega)

@[simp] theorem field16_lowByte (hi lo : Byte) : (field16 hi lo).extractLsb' 0 8 = lo :=
  extract_eq_byte (by rw [field16_toNat]; omega)

/-- A field is its two bytes (R52). -/
@[simp] theorem field16_bytes (x : BitVec 16) : field16 (x.extractLsb' 8 8) (x.extractLsb' 0 8) = x := by
  apply BitVec.eq_of_toNat_eq
  rw [field16_toNat, extract_toNat, extract_toNat]
  omega

/-! ### The sign-magnitude temperature -/

/-- The value of a raw field by its number: below 0x8000 the number, from there on the negated rest (R173). -/
theorem signMagnitude_eq (raw : BitVec 16) :
    signMagnitude raw = if raw.toNat < 32768 then (raw.toNat : Int) else 32768 - (raw.toNat : Int) := by
  have hsign : raw.extractLsb' 15 1 = 1#1 ↔ ¬ raw.toNat < 32768 := by
    rw [← BitVec.toNat_inj, extract_toNat, BitVec.toNat_ofNat]
    omega
  simp only [signMagnitude, hsign, extract_toNat, ite_not]
  split <;> omega

theorem signMagnitude_range (raw : BitVec 16) : -32767 ≤ signMagnitude raw ∧ signMagnitude raw ≤ 32767 := by
  rw [signMagnitude_eq]
  split <;> omega

/-- The raw field of a value by its number, the two cases of R179. -/
theorem rawTemperature_toNat {t : Int} (hlo : -32767 ≤ t) (hhi : t ≤ 32767) :
    ((rawTemperature t).toNat : Int) = if 0 ≤ t then t else 32768 - t := by
  have hnarrow {m : Int} (h0 : 0 ≤ m) (hm : m ≤ 32767) : (BitVec.ofInt 16 m).toNat = m.toNat := by
    rw [BitVec.toNat_ofInt]
    omega
  unfold rawTemperature
  split
  case isTrue h0 =>
    rw [hnarrow h0 hhi]
    omega
  case isFalse h0 =>
    have hsign : (0x8000#16).toNat ||| (-t).toNat = 32768 + (-t).toNat :=
      (Nat.two_pow_add_eq_or_of_lt (i := 15) (by omega) 1).symm
    rw [BitVec.toNat_or, hnarrow (by omega) (by omega), hsign]
    omega

theorem signMagnitude_rawTemperature {t : Int} (hlo : -32767 ≤ t) (hhi : t ≤ 32767) :
    signMagnitude (rawTemperature t) = t := by
  have hraw := rawTemperature_toNat hlo hhi
  rw [signMagnitude_eq]
  split at hraw <;> split <;> omega

theorem rawTemperature_signMagnitude {raw : BitVec 16} (h : raw ≠ 0x8000#16) :
    rawTemperature (signMagnitude raw) = raw := by
  have hne : raw.toNat ≠ 32768 := fun he => h (BitVec.eq_of_toNat_eq he)
  have hval := signMagnitude_eq raw
  obtain ⟨hlo, hhi⟩ := signMagnitude_range raw
  have hraw := rawTemperature_toNat hlo hhi
  apply BitVec.eq_of_toNat_eq
  split at hval <;> split at hraw <;> omega

theorem signMagnitude_field16 (hi lo : Byte) :
    signMagnitude (field16 hi lo) =
      if 128 ≤ hi.toNat then -(((hi.toNat - 128) * 256 + lo.toNat : Nat) : Int)
      else ((hi.toNat * 256 + lo.toNat : Nat) : Int) := by
  rw [signMagnitude_eq, field16_toNat]
  split <;> split <;> omega

/-- Settles O54: the range and the collisions are read off the value by number, the encoder gives each value a field. -/
theorem temperatureRange : Obligations.TemperatureRange := by
  refine ⟨signMagnitude_range, fun t hlo hhi => ⟨rawTemperature t, signMagnitude_rawTemperature hlo hhi⟩,
    fun raw raw' => ?_, by decide, by decide⟩
  simp only [signMagnitude_eq, ← BitVec.toNat_inj, BitVec.toNat_ofNat]
  split <;> split <;> omega

/-! ### The decoder on bytes and on fields -/

/-- `Decode` on its five bytes (R177). -/
theorem decodeFrame_frameOfBytes (b0 b1 b2 b3 b4 : Byte) :
    decodeFrame (frameOfBytes b0 b1 b2 b3 b4) =
      if expectedChecksum b0 b1 b2 b3 ≠ b4.toNat then .checksumMismatch
      else .ok
        { temperatureTenths := signMagnitude (field16 b2 b3)
          humidityTenths := (field16 b0 b1).toNat } := by
  simp [decodeFrame]

/-- Settles O51: the fields of the bytes, by their numbers. -/
theorem fiveBytesDecodeToAReading : Obligations.FiveBytesDecodeToAReading := by
  intro b0 b1 b2 b3 b4
  have h := decodeFrame_frameOfBytes b0 b1 b2 b3 b4
  rwa [field16_toNat, signMagnitude_field16] at h

theorem expectedByte_toNat (b0 b1 b2 b3 : Byte) :
    (BitVec.ofNat 8 (expectedChecksum b0 b1 b2 b3)).toNat = expectedChecksum b0 b1 b2 b3 :=
  Nat.mod_mod _ _

theorem expectedChecksum_eq_iff {b0 b1 b2 b3 b4 : Byte} :
    expectedChecksum b0 b1 b2 b3 = b4.toNat ↔ b4 = BitVec.ofNat 8 (expectedChecksum b0 b1 b2 b3) := by
  rw [← BitVec.toNat_inj, expectedByte_toNat, eq_comm]

theorem decodeFrame_frameOfFields (h raw : BitVec 16) :
    decodeFrame (frameOfFields h raw) =
      .ok { temperatureTenths := signMagnitude raw, humidityTenths := h.toNat } := by
  rw [frameOfFields, decodeFrame_frameOfBytes, if_neg (not_not_intro (expectedByte_toNat ..).symm)]
  simp

/-- The frames that decode are the frames of two fields, and these fields are what they decode to (R176, R177). -/
theorem eq_frameOfFields_of_decodeFrame {f : Frame} {r : Reading} (hf : decodeFrame f = .ok r) :
    ∃ h raw, f = frameOfFields h raw ∧
      r = { temperatureTenths := signMagnitude raw, humidityTenths := h.toNat } := by
  rw [← frameOfBytes_bytes f, decodeFrame_frameOfBytes] at hf
  split at hf
  case isTrue => cases hf
  case isFalse hsum =>
    refine ⟨field16 (humidityHigh f) (humidityLow f), field16 (temperatureHigh f) (temperatureLow f), ?_, ?_⟩
    · have hbyte := expectedChecksum_eq_iff.mp (not_not.mp hsum)
      simp only [frameOfFields, field16_highByte, field16_lowByte, ← hbyte, frameOfBytes_bytes]
    · exact (DecodeResult.ok.inj hf).symm

theorem frameOfFields_rawField (h raw : BitVec 16) : (frameOfFields h raw).extractLsb' 8 16 = raw := by
  apply BitVec.eq_of_toNat_eq
  simp only [extract_toNat, frameOfFields, frameOfBytes_toNat]
  omega

/-- Settles O52: a frame that decodes is the frame of its two fields, and only the field 0x8000 is not given back. -/
theorem decodeOfEncodedReading : Obligations.DecodeOfEncodedReading := by
  refine ⟨fun h t hh hlo hhi => ?decoded, fun f r hf hraw => ?encoded, fun f r hf hraw => ?negativeZero⟩
  case decoded =>
    rw [encodeReading, decodeFrame_frameOfFields, signMagnitude_rawTemperature hlo hhi, BitVec.toNat_ofNat,
      Nat.mod_eq_of_lt (by dsimp only; omega)]
  case encoded =>
    obtain ⟨h, raw, rfl, rfl⟩ := eq_frameOfFields_of_decodeFrame hf
    rw [frameOfFields_rawField] at hraw
    simp [encodeReading, rawTemperature_signMagnitude hraw]
  case negativeZero =>
    obtain ⟨h, raw, rfl, rfl⟩ := eq_frameOfFields_of_decodeFrame hf
    rw [frameOfFields_rawField] at hraw
    subst hraw
    exact frameOfFields_rawField ..

/-! ### The checksum byte -/

/-- The one byte 4 that passes after these four bytes (R175). -/
def passingByte (high : BitVec 32) : Byte :=
  BitVec.ofNat 8 (expectedChecksum (high.extractLsb' 24 8) (high.extractLsb' 16 8) (high.extractLsb' 8 8)
    (high.extractLsb' 0 8))

theorem append_eq_frameOfBytes (high : BitVec 32) (c : Byte) :
    high ++ c = frameOfBytes (high.extractLsb' 24 8) (high.extractLsb' 16 8) (high.extractLsb' 8 8)
      (high.extractLsb' 0 8) c := by
  apply BitVec.eq_of_toNat_eq
  simp only [frameOfBytes_toNat, append_byte_toNat, extract_toNat]
  omega

theorem decodeFrame_append_mismatch_iff {high : BitVec 32} {c : Byte} :
    decodeFrame (high ++ c) = .checksumMismatch ↔ c ≠ passingByte high := by
  rw [passingByte, ne_eq, ← expectedChecksum_eq_iff, append_eq_frameOfBytes, decodeFrame_frameOfBytes]
  simp

theorem decodeFrame_append_ok_iff {high : BitVec 32} {c : Byte} :
    (∃ r, decodeFrame (high ++ c) = .ok r) ↔ c = passingByte high := by
  rw [← not_iff_not, ← ne_eq c, ← decodeFrame_append_mismatch_iff]
  cases decodeFrame (high ++ c) <;> simp

theorem exists_eq_append (f : Frame) : ∃ (high : BitVec 32) (c : Byte), f = high ++ c := by
  refine ⟨f.extractLsb' 8 32, f.extractLsb' 0 8, BitVec.eq_of_toNat_eq ?_⟩
  rw [append_byte_toNat, extract_toNat, extract_toNat]
  omega

/-- A flip of one of the low eight bits is a flip of byte 4. -/
theorem append_flip (high : BitVec 32) (c : Byte) {i : Nat} (hi : i < 8) :
    (high ++ c) ^^^ BitVec.twoPow 40 i = high ++ (c ^^^ BitVec.twoPow 8 i) := by
  have hbit : ∀ i < 8, BitVec.twoPow 40 i = 0#32 ++ BitVec.twoPow 8 i := by decide
  rw [hbit i hi, BitVec.xor_append, BitVec.xor_zero]

/-- Settles O53: one byte passes after given four, and a flip of one bit of byte 4 makes it another byte. -/
theorem checksumSensitivity : Obligations.ChecksumSensitivity := by
  refine ⟨fun f r b hf hb => ?other, fun f r i hf hi => ?flip,
    fun high => ⟨passingByte high, fun c => decodeFrame_append_ok_iff⟩, fun f i j _ hi hj hfi hfj => ?oneFlip⟩ <;>
    obtain ⟨high, c, rfl⟩ := exists_eq_append f
  case other =>
    have hc := decodeFrame_append_ok_iff.mp ⟨r, hf⟩
    rw [BitVec.extractLsb'_append_eq_right, hc] at hb
    rw [BitVec.extractLsb'_append_eq_left]
    exact decodeFrame_append_mismatch_iff.mpr hb
  case flip =>
    have hc := decodeFrame_append_ok_iff.mp ⟨r, hf⟩
    have hne : ∀ i < 8, BitVec.twoPow 8 i ≠ 0#8 := by decide
    rw [append_flip high c hi, decodeFrame_append_mismatch_iff, ← hc]
    exact fun hsame => hne i hi ((BitVec.xor_right_inj c).mp (hsame.trans BitVec.xor_zero.symm))
  case oneFlip =>
    rw [append_flip high c hi, decodeFrame_append_ok_iff] at hfi
    rw [append_flip high c hj, decodeFrame_append_ok_iff, ← hfi, BitVec.xor_right_inj] at hfj
    have hinj : ∀ i < 8, ∀ j < 8, BitVec.twoPow 8 j = BitVec.twoPow 8 i → i = j := by decide
    exact hinj i hi j hj hfj

end Sys2Proof.Machine
end

section
/-! PROOFS, family 43_line_timebase.md: misuse of the Line Driver faults (R192, R193; I1, I2), and after release the
line reads High unless the sensor pulls it low (R198; I4). -/

namespace Sys2Proof.Machine

/-! ### Misuse of the Line Driver -/

/-- Every wait begins with its read (R135). -/
theorem exec_wait_output {w : WaitRow} {s : State} (hw : w ∈ waitTable) (hd : s.dir = .output) :
    exec w.instr s = .fault .lineReadWhileOutput := by
  rw [exec_wait hw, pollOnce, lineRead_output _ hd]

/-- BIT_COMMIT at an eighth bit whose byte has no place in the buffer (assumption log 10). -/
theorem execBitCommit_noPlace {s : State} (hn : s.nbit + 1#4 = 8#4)
    (hb : s.buf.store s.bidx (shiftIn s.acc s.sbit) = none) :
    exec .bitCommit s = .fault .bufferIndexOutOfRange := by
  refine (if_pos hn).trans ?_
  rw [hb]

/-- Settles O27: the first line primitive faults on the pin's direction, and the buffer ends at index 4. -/
theorem misuseFaults : Obligations.MisuseFaults := by
  refine ⟨fun s hd => ⟨?low, ?release⟩, fun s w hd hw => exec_wait_output hw hd, fun s hd => ?sample,
    fun s hn hi => ?noPlace⟩
  case low => rw [exec, execStartLow, lineWrite_input _ _ hd]
  case release => rw [exec, execStartRelease, lineWrite_input _ _ hd]
  case sample => rw [exec, execBitSample, lineRead_output _ (by exact hd)]
  case noPlace =>
    have hplace : s.buf.store s.bidx (shiftIn s.acc s.sbit) = none := by
      rw [← Option.not_isSome_iff_eq_none, store_isSome_iff]
      exact BitVec.not_le.mpr hi
    exact execBitCommit_noPlace (by rw [hn]; rfl) hplace

/-! ### The released line -/

/-- The start signal is not being sent: the engine is idle, or in WAIT_ACK_LOW or later (R130). -/
def State.pastStart (s : State) : Prop :=
  s.pc = StateCode.idle ∨ StateCode.waitAckLow ≤ s.pc

theorem successors_pastStart : ∀ c : BitVec 4, StateCode.waitAckLow ≤ c →
    ∀ c' ∈ successors c, c' = StateCode.idle ∨ StateCode.waitAckLow ≤ c' := by
  decide

/-- Only an acceptance, a host turn, leads back to the start signal. -/
theorem EngineStep.pastStart {s t : State} (h : EngineStep s t) (hs : s.pastStart) : t.pastStart := by
  rcases hs with hp | hp
  · exact h.eq_of_idle hp ▸ .inl hp
  · rcases h.pc_mem_successors with hmem | ⟨-, hsame⟩
    · exact successors_pastStart s.pc hp t.pc hmem
    · exact .inr (hsame ▸ hp)

/-- Outside the start signal the line is neither turned nor written (R148). -/
theorem ValidPrims.quiet {s : State} {issued : List Prim} (h : ValidPrims s issued) (hs : s.pastStart) :
    ∀ p ∈ issued, p.quiet := by
  have hout : ¬ (0x1#4 ≤ s.pc ∧ s.pc ≤ 0x3#4) := by
    rcases hs with hp | hp
    · simp [hp]
    · exact fun hstart => absurd (BitVec.le_trans hp hstart.2) (by decide)
  intro p hp
  refine ⟨fun d hd => ?turned, fun l hl => hout (h.writes l (hl ▸ hp))⟩
  case turned =>
    rcases h.turnsPin d (hd ▸ hp) with ⟨h1, -⟩ | ⟨h3, -⟩
    · exact hout (by simp [h1])
    · exact hout (by simp [h3])

/-- `a` is past the start signal, and since `s` nothing has turned the pin or written the line. -/
def quietSince (s a : State) : Prop :=
  a.pastStart ∧ ∃ issued, a.trace = issued ++ s.trace ∧ ∀ p ∈ issued, p.quiet

theorem EngineStep.quietSince {s a t : State} (h : EngineStep a t) (ha : quietSince s a) : quietSince s t := by
  obtain ⟨hpast, before, htrace, hbefore⟩ := ha
  obtain ⟨issued, hissued, hvalid⟩ := h.validPrims
  refine ⟨h.pastStart hpast, issued ++ before, by rw [hissued, htrace, List.append_assoc], fun p hp => ?_⟩
  exact (List.mem_append.mp hp).elim (hvalid.quiet hpast p) (hbefore p)

/-- What times a quiet stretch of the trace is quiet. -/
theorem quiet_of_timesTrace {s t : State} {ps : List TimedPrim} (hquiet : quietSince s t)
    (hps : timesTrace ps s.trace t.trace) : ∀ p ∈ ps, p.prim.quiet := by
  obtain ⟨-, issued, htrace, hissued⟩ := hquiet
  have hsame : issued = (ps.map TimedPrim.prim).reverse := List.append_cancel_right (htrace.symm.trans hps)
  intro p hp
  exact hissued p.prim (by rw [hsame]; exact List.mem_reverse.mpr (List.mem_map_of_mem hp))

/-- Settles O59: the pin is an input and the engine issues only reads and delays, so a read returns what the sensor
gives the undriven line. -/
theorem releasedLineReadsHigh : Obligations.ReleasedLineReadsHigh := by
  intro s t k level pulledLow ps hs hpc hturns hreach hps hrun hline p l hp hread
  have hquiet : quietSince s t :=
    reaches_keeps EngineStep.quietSince hs.codesOk hturns hreach ⟨.inr hpc, [], rfl, by simp⟩
  have hlevel := read_of_quiet hrun hline (quiet_of_timesTrace hquiet hps) hp hread
  rw [hs.dir_input hpc] at hlevel
  exact ⟨fun hlow => by simpa [hlow] using hlevel, fun hfree => by simpa [hfree] using hlevel⟩

end Sys2Proof.Machine
end

section
/-! PROOFS, family 60_exceptions.md: the failing step of a wait (R213), and a wait with no bound (R219). -/

namespace Sys2Proof.Machine

/-! ### Failures -/

/-- A transaction that ends in NO_RESPONSE or TIMEOUT ends in a wait, with the read that used up its bound (R135, R210,
R211). -/
theorem EngineStep.eq_failedWait {s t : State} (h : EngineStep s t) (hp : s.pc ≠ StateCode.idle)
    (ht : t.pc = StateCode.idle) (hresult : t.result = ResultCode.noResponse ∨ t.result = ResultCode.timeout) :
    ∃ w ∈ waitTable, s.pc = w.code ∧
      t = { tookLevel s with poll := s.poll + 1, result := failCode w.kind, pc := StateCode.idle } := by
  cases h with
  | waitFails w hw hcode _ _ _ => exact ⟨w, hw, hcode, rfl⟩
  | idle hidle => exact absurd hidle hp
  | waitEnds w hw _ _ _ => exact absurd ht (waitFollowing_ne_idle hw)
  | waitGoesOn _ _ _ _ _ _ => exact absurd ht hp
  | bitShifted _ _ | byteStored _ _ _ _ =>
    rw [afterCommit_pc] at ht
    split at ht <;> cases ht
  | doneAcquire _ _ => simp at hresult
  | doneReadSensor _ _ =>
    have hdecode := recordDecode_result_cases s.buf.frame { s with frame := s.buf.frame }
    rcases hdecode with hr | hr <;> simp [hr] at hresult
  | startHigh _ | startLow _ _ | startRelease _ _ | sampledHigh _ _ _ | sampledLow _ _ _ | bitTail _ => cases ht

/-- NO_RESPONSE is the failure of WAIT_ACK_LOW alone (R210, R211). -/
theorem failCode_eq_noResponse_iff {w : WaitRow} (hw : w ∈ waitTable) :
    failCode w.kind = ResultCode.noResponse ↔ w.code = StateCode.waitAckLow := by
  fin_cases hw <;> decide

/-- Only the engine ends a transaction in a failure: a host turn leaves a busy block's `pc`, and a reset leaves RESULT
NONE (R106, R213, R240). -/
theorem engineStep_of_failure {s t : State} (h : step s = .next t) (hp : s.pc ≠ StateCode.idle)
    (ht : t.pc = StateCode.idle) (hresult : t.result = ResultCode.noResponse ∨ t.result = ResultCode.timeout) :
    EngineStep { s with turns := s.turns.tail } t := by
  obtain ⟨-, ⟨-, he⟩ | ⟨a, rest, -, ha⟩ | ⟨rest, -, rfl⟩ | ⟨rest, -, rfl⟩⟩ := step_cases h
  · exact he
  · obtain hsame | ⟨hidle, -⟩ := ha.pc_eq_or_accepted
    · exact absurd (hsame.symm.trans ht) hp
    · exact absurd hidle hp
  · exact absurd ht hp
  · simp at hresult

/-- Settles O35: the step is a wait's failing read, and the invariant holds after it. -/
theorem failureLeavesPublishedRegisters : Obligations.FailureLeavesPublishedRegisters := by
  intro s t hs h hp ht hresult
  obtain ⟨hdir, hdrv⟩ := transactionsEndWithTheLineReleased s t hs h hp ht
  obtain ⟨w, hw, hcode, rfl⟩ := (engineStep_of_failure h hp ht hresult).eq_failedWait hp ht hresult
  have hcode : s.pc = w.code := hcode
  exact ⟨rfl, hdir, hdrv, hcode ▸ failCode_eq_noResponse_iff hw⟩

/-! ### A wait with no bound -/

/-- Settles O49: an unbounded wait is never exhausted, so it goes on for any number of reads of the other level. -/
theorem unboundedWaitHangs : Obligations.UnboundedWaitHangs := by
  intro w s n rest hw hkind hc hp hd hturns hunbounded hscript
  have hgoesOn : exhausted (w.bound s.cfg) (s.poll + n) = false := by
    rw [bound_of_timeout hkind, hunbounded]
    rfl
  exact reaches_waited hw hc hp hd hturns hscript hgoesOn

end Sys2Proof.Machine
end

section
/-! PROOFS, family 70_reset_and_hazards.md: a reset turn (R240), and the timed view: the start signal's widths (R250), the
acknowledgement (R251, R252), and when the bits the engine reads are those the sensor sent (R253, R254). -/

namespace Sys2Proof.Machine

/-! ### Reset -/

/-- Settles O2: the turn is a reset, and a reset leaves the model's own fields. -/
theorem resetTurnSetsEveryRegister : Obligations.ResetTurnSetsEveryRegister := by
  intro s rest hc ht
  rw [step_of_codesOk hc, fetch, ht]
  rfl

/-! ### Time: a run lasts at least what its delays request -/

/-- How long a primitive lasts at the least, in microseconds (R195). -/
def Prim.leastUs : Prim → ℕ
  | .delayUs n => n
  | .delayMs n => 1000 * n
  | .setDir _ => 0
  | .write _ => 0
  | .read _ => 0

theorem leastUs_le_of_respects {level : ℝ → Level} {p : TimedPrim} (h : p.respects level) :
    (p.prim.leastUs : ℝ) ≤ p.finish - p.start := by
  obtain ⟨hle, hprim⟩ := h
  cases hp : p.prim with
  | delayUs n | delayMs n => simpa [hp, Prim.leastUs] using hprim
  | setDir _ | write _ | read _ => simpa [Prim.leastUs] using hle

/-- A read's instant lies in its interval, and the read returns the line's level there (R249). -/
theorem read_of_respects {level : ℝ → Level} {p : TimedPrim} {l : Level} (h : p.respects level)
    (hp : p.prim = .read l) : p.start ≤ p.instant ∧ p.instant ≤ p.finish ∧ l = level p.instant := by
  obtain ⟨-, hprim⟩ := h
  rwa [hp] at hprim

theorem respects_of_timedRun {level : ℝ → Level} {ps : List TimedPrim} (hrun : timedRun level ps) :
    ∀ p ∈ ps, p.respects level := by
  induction ps with
  | nil => simp
  | cons q ps ih =>
    obtain ⟨hq, -, hrest⟩ := timedRun_cons hrun
    exact List.forall_mem_cons.mpr ⟨hq, ih hrest⟩

theorem timedRun_tail {level : ℝ → Level} {p : TimedPrim} {ps : List TimedPrim} (h : timedRun level (p :: ps)) :
    timedRun level ps := by
  obtain ⟨-, -, hrest⟩ := timedRun_cons h
  exact hrest

/-- From the end of one primitive to the start of a later one passes at least what the primitives between them last. -/
theorem sum_leastUs_le {level : ℝ → Level} {p q : TimedPrim} {between rest : List TimedPrim}
    (hrun : timedRun level (p :: (between ++ q :: rest))) :
    (((between.map fun b => b.prim.leastUs).sum : ℕ) : ℝ) ≤ q.start - p.finish := by
  induction between generalizing p with
  | nil =>
    obtain ⟨-, hnext, -⟩ := timedRun_cons hrun
    simpa using hnext
  | cons b between ih =>
    obtain ⟨-, hnext, hrest⟩ := timedRun_cons hrun
    have hb := leastUs_le_of_respects (respects_of_timedRun hrest b (by simp))
    have hstart : p.finish ≤ b.start := hnext b (by simp)
    have hlater := ih hrest
    push_cast [List.map_cons, List.sum_cons] at hlater ⊢
    linarith

/-- A later primitive starts no sooner than an earlier one ends (R249). -/
theorem finish_le_start {level : ℝ → Level} {p q : TimedPrim} {ps : List TimedPrim} (hrun : timedRun level (p :: ps))
    (hq : q ∈ ps) : p.finish ≤ q.start := by
  obtain ⟨between, rest, rfl⟩ := List.append_of_mem hq
  exact sub_nonneg.mp ((Nat.cast_nonneg _).trans (sum_leastUs_le hrun))

/-- A delay between two primitives keeps them apart. -/
theorem leastUs_le_of_between {level : ℝ → Level} {p hold q : TimedPrim} {rest : List TimedPrim}
    (hrun : timedRun level (p :: hold :: q :: rest)) : (hold.prim.leastUs : ℝ) ≤ q.start - p.finish := by
  simpa using sum_leastUs_le (between := [hold]) hrun

/-- The primitives timed are those issued (R61); a trace has them the latest first. -/
theorem prims_of_timesTrace {ps : List TimedPrim} {issued before after : List Prim} (hps : timesTrace ps before after)
    (htrace : after = issued ++ before) : ps.map TimedPrim.prim = issued.reverse :=
  List.reverse_eq_iff.mp (List.append_cancel_right (hps.symm.trans htrace))

/-! ### The start signal -/

/-- The state after START_RELEASE (R134). -/
def State.released (s : State) : State :=
  { s with
    drv := .high, dir := .input, poll := 0, pc := StateCode.waitAckLow
    trace := .setDir .input :: .delayUs s.cfg.tReleaseUs :: .write .high :: s.trace }

/-- The line is driven in START_RELEASE (R133). -/
theorem SafeState.output_of_startRelease {s : State} (hs : SafeState s) (hp : s.pc = StateCode.startRelease) :
    s.dir = .output := by
  obtain ⟨-, ⟨-, hdriven, -⟩, -⟩ := hs
  exact (hdriven hp).1

theorem SafeState.resultOk {s : State} (hs : SafeState s) : ResultOk s := hs.2.2.1

theorem EngineStep.eq_released {s t : State} (h : EngineStep s t) (hp : s.pc = StateCode.startRelease)
    (hd : s.dir = .output) : t = s.released := by
  obtain ⟨-, -, hrelease⟩ := startSignalSteps s
  cases (h.exec_of_decode (i := .startRelease) (by rw [hp]; rfl)).symm.trans (hrelease hd)
  rfl

/-- The primitives of the start signal, the latest first (R132 to R134). -/
theorem trace_of_startSignal {s t : State} (hc : CodesOk s) (hp : s.pc = StateCode.startHigh) (hturns : s.turns = [])
    (h : reaches 3 s t) :
    t.trace = [.setDir .input, .delayUs s.cfg.tReleaseUs, .write .high, .delayMs s.cfg.tStartLowMs, .write .low,
      .delayMs s.cfg.tIdleMs, .write .high, .setDir .output] ++ s.trace := by
  obtain ⟨u, hu, h⟩ := reaches_succ_iff.mp h
  obtain ⟨v, hv, h⟩ := reaches_succ_iff.mp h
  obtain ⟨w, hw, h⟩ := reaches_succ_iff.mp h
  have hu := (step_eq_next_iff hc hturns).mp hu
  have hv := (step_eq_next_iff (hu.codesOk hc) (hu.turns_eq.trans hturns)).mp hv
  have hw := (step_eq_next_iff (hv.codesOk (hu.codesOk hc)) (hv.turns_eq.trans (hu.turns_eq.trans hturns))).mp hw
  cases (hu.exec_of_decode (i := .startHigh) (by rw [hp]; rfl)).symm.trans (startSignalSteps s).1
  cases (hv.exec_of_decode (i := .startLow) rfl).symm.trans ((startSignalSteps _).2.1 rfl)
  cases hw.eq_released rfl rfl
  cases reaches_zero_iff.mp h
  rfl

/-- Settles O58: a delay lies between the write of High and that of Low, and another before the release. -/
theorem startSignalHoldsItsLevels : Obligations.StartSignalHoldsItsLevels := by
  intro s t level setOut high hold low pulse release wait setIn hc hp hturns hreach hps hrun
  have hprims := prims_of_timesTrace hps (trace_of_startSignal hc hp hturns hreach)
  obtain ⟨-, hhigh, hhold, hlow, hpulse, hrelease, -⟩ : setOut.prim = .setDir .output ∧ high.prim = .write .high ∧
      hold.prim = .delayMs s.cfg.tIdleMs ∧ low.prim = .write .low ∧ pulse.prim = .delayMs s.cfg.tStartLowMs ∧
      release.prim = .write .high ∧ wait.prim = .delayUs s.cfg.tReleaseUs ∧ setIn.prim = .setDir .input := by
    simpa using hprims
  have hrun := timedRun_tail hrun
  have hidle := leastUs_le_of_between hrun
  have hstart := leastUs_le_of_between (timedRun_tail (timedRun_tail hrun))
  refine ⟨hhigh, hlow, hrelease, ?_, ?_⟩
  · simpa [hhold, Prim.leastUs] using hidle
  · simpa [hpulse, Prim.leastUs] using hstart

/-! ### Data bits -/

/-- What BIT_SAMPLE latches and issues (R140). -/
theorem execBitSample_next {s t : State} (h : exec .bitSample s = .next t) :
    t.sbit = levelBit s.nextLevel ∧ t.trace = .read s.nextLevel :: .delayUs s.cfg.tSettleUs :: s.trace := by
  have hx : execBitSample s = .next t := h
  have hd : s.dir = .input := (lineRead_next_iff.mp hx).1
  cases hl : s.nextLevel with
  | high => cases (execBitSample_high hd hl).symm.trans hx; simp [hl, levelBit]
  | low => cases (execBitSample_low hd hl).symm.trans hx; simp [hl, levelBit]

/-- Strictly between the end of a short pulse and that of a long one, the line's level is the bit (R71). -/
theorem levelBit_of_bitPulse {level : ℝ → Level} {tr width t : ℝ} {bit : BitVec 1} (h : bitPulse level tr width bit)
    (hlow : tr + shortPulseMax < t) (hhigh : t < tr + longPulse) : levelBit (level t) = bit := by
  obtain ⟨hzero, hone, hpulse, hgap⟩ := h
  obtain rfl | rfl := BitVec.eq_zero_or_eq_one bit
  · obtain ⟨hmin, hmax⟩ := hzero rfl
    have hcovers : (longPulse : ℝ) ≤ shortPulseMin + bitGap := by norm_num [longPulse, shortPulseMin, bitGap]
    rw [hgap t (by linarith) (by linarith)]
    rfl
  · have hwidth := hone rfl
    have hrisen : (0 : ℝ) ≤ shortPulseMax := Nat.cast_nonneg _
    rw [hpulse t (by linarith) (by linarith)]
    rfl

/-- Settles O56: the delay of BIT_SAMPLE carries the read past a short pulse, and the window ends before a long one
does. -/
theorem sampledBitIsTheSentBit : Obligations.SampledBitIsTheSentBit := by
  intro s t level tr width eps bit seen hold sample before hexec htrace hseen hps hrun hbit hwindow hrise hlate
  obtain ⟨hsbit, hissued⟩ := execBitSample_next hexec
  have hprims := prims_of_timesTrace (issued := [.read s.nextLevel, .delayUs s.cfg.tSettleUs, .read .high]) hps
    (by rw [hissued, htrace]; rfl)
  obtain ⟨-, hhold, hsample⟩ : seen.prim = .read .high ∧ hold.prim = .delayUs s.cfg.tSettleUs ∧
      sample.prim = .read s.nextLevel := by
    simpa using hprims
  obtain ⟨hsettle, hend⟩ := hwindow
  have hreads := respects_of_timedRun hrun
  obtain ⟨-, hseenEnd, -⟩ := read_of_respects (hreads seen (by simp)) hseen
  obtain ⟨hsampleStart, -, hlevel⟩ := read_of_respects (hreads sample (by simp)) hsample
  have hdelay : (s.cfg.tSettleUs : ℝ) ≤ sample.start - seen.finish := by
    simpa [hhold, Prim.leastUs] using leastUs_le_of_between hrun
  rw [hsbit, hlevel]
  exact levelBit_of_bitPulse hbit (by linarith) (by linarith)

/-- Settles O57: the tail carries the read to the fall or past it, so the line is Low and the wait ends. -/
theorem tailEndsInTheFollowingGap : Obligations.TailEndsInTheFollowingGap := by
  intro s t u level tr width sample tail first htail hwait htailPrim hfirst hrun hsampleEnd hbit hsettle hreach hgapEnd
  cases htail
  obtain ⟨-, hone, -, hgap⟩ := hbit
  have hwidth : width = longPulse := hone rfl
  obtain ⟨hfirstStart, -, hlevel⟩ := read_of_respects (respects_of_timedRun hrun first (by simp)) hfirst
  have hdelay : (s.cfg.tTailUs : ℝ) ≤ first.start - sample.finish := by
    simpa [htailPrim, Prim.leastUs] using leastUs_le_of_between hrun
  have hlow : s.nextLevel = .low := hlevel.trans (hgap _ (by linarith) (by linarith))
  have hw : (⟨.waitBitLow, 0xA#4, .low, .timeout, 0xB#4⟩ : WaitRow) ∈ waitTable := by decide
  obtain ⟨hd, -⟩ := pollOnce_cases hwait
  cases hwait.symm.trans (exec_wait_target hw hd hlow)
  exact ⟨rfl, congrArg (Prim.read · :: _) hlow⟩

/-! ### The acknowledgement wait -/

/-- What `n` reads High of a wait issue when it goes on after each, the latest first (R135). -/
def missedPolls (pollUs n : Nat) : List Prim :=
  (List.replicate n [Prim.delayUs pollUs, .read .high]).flatten

theorem missedPolls_succ (q n : Nat) : missedPolls q (n + 1) = .delayUs q :: .read .high :: missedPolls q n := rfl

theorem missedPolls_succ' (q n : Nat) : missedPolls q (n + 1) = (missedPolls q n ++ [.delayUs q]) ++ [.read .high] := by
  simp [missedPolls, List.replicate_succ']

theorem read_low_notMem_missedPolls (q n : Nat) : .read .low ∉ missedPolls q n := by
  simp [missedPolls, List.mem_flatten, List.mem_replicate]

theorem sum_leastUs_missedPolls (q n : Nat) : ((missedPolls q n).map Prim.leastUs).sum = n * q := by
  simp [missedPolls, List.map_flatten, List.sum_flatten, Prim.leastUs]

/-- The earliest of these primitives is a read, and the delays are all after it. -/
theorem sum_leastUs_of_missedPolls {q n : Nat} {ps : List Prim} {p : Prim} (h : ps ++ [p] = missedPolls q n) :
    p = .read .high ∧ (ps.map Prim.leastUs).sum = n * q := by
  cases n with
  | zero => simp [missedPolls] at h
  | succ n =>
    rw [missedPolls_succ'] at h
    obtain ⟨rfl, hp⟩ := List.append_inj' h rfl
    obtain rfl : p = .read .high := by simpa using hp
    refine ⟨rfl, ?_⟩
    rw [List.map_append, List.sum_append, sum_leastUs_missedPolls, Nat.succ_mul]
    rfl

/-- The acknowledgement wait of a transaction goes on after `k` reads, all High, since its release `r` (R136). -/
structure AckWaiting (r : State) (k : Nat) (a : State) : Prop where
  pc : a.pc = StateCode.waitAckLow
  result : a.result = ResultCode.none
  cfg : a.cfg = r.cfg
  poll : a.poll = k
  bound : k < r.cfg.hsPolls
  trace : a.trace = missedPolls r.cfg.pollUs k ++ r.trace

/-- Where a transaction stands `k` steps after its release `r`, with no host turns: it waits for the acknowledgement, it
has missed it, or it has read it (R136). -/
inductive AckProgress (r : State) (k : Nat) (a : State) : Prop
  | waits (hwaits : AckWaiting r k a)
  | missed (m : Nat) (hp : a.pc = StateCode.idle) (hresult : a.result = ResultCode.noResponse)
      (hbound : r.cfg.hsPolls = m + 1) (hle : m + 1 ≤ k)
      (htrace : a.trace = .read .high :: missedPolls r.cfg.pollUs m ++ r.trace)
  | seen (issued : List Prim) (hp : a.pc = StateCode.idle ∨ StateCode.waitHsHigh ≤ a.pc)
      (hresult : a.result ≠ ResultCode.noResponse) (htrace : a.trace = issued ++ r.trace)
      (hlow : .read .low ∈ issued)

theorem successors_pastAck : ∀ c : BitVec 4, StateCode.waitHsHigh ≤ c →
    ∀ c' ∈ successors c, c' = StateCode.idle ∨ StateCode.waitHsHigh ≤ c' := by
  decide

/-- Past WAIT_ACK_LOW a transaction neither goes back there nor ends in NO_RESPONSE (R130, R210). -/
theorem EngineStep.pastAck {a t : State} (h : EngineStep a t) (hp : a.pc = StateCode.idle ∨ StateCode.waitHsHigh ≤ a.pc)
    (hresult : a.result ≠ ResultCode.noResponse) :
    (t.pc = StateCode.idle ∨ StateCode.waitHsHigh ≤ t.pc) ∧ t.result ≠ ResultCode.noResponse := by
  rcases hp with hp | hp
  · exact h.eq_of_idle hp ▸ ⟨.inl hp, hresult⟩
  · constructor
    · rcases h.pc_mem_successors with hmem | ⟨hidle, hsame⟩
      · exact successors_pastAck a.pc hp t.pc hmem
      · exact .inl (hsame.trans hidle)
    · intro hfail
      rcases h.result_eq_or_ended with hsame | ⟨hidle, hend, -⟩
      · exact hresult (hsame.symm.trans hfail)
      · obtain ⟨w, hw, hcode, rfl⟩ := h.eq_failedWait hidle hend (.inl hfail)
        rw [hcode, (failCode_eq_noResponse_iff hw).mp hfail] at hp
        exact absurd hp (by decide)

theorem eq_high_of_ne_low {l : Level} (h : l ≠ .low) : l = .high := by
  cases l with
  | high => rfl
  | low => exact absurd rfl h

/-- One poll of the acknowledgement wait: it reads Low, or High for the last time, or High and waits on (R136). -/
theorem EngineStep.ackProgress_of_waiting {r a t : State} {k : Nat} (h : EngineStep a t) (ha : AckWaiting r k a) :
    AckProgress r (k + 1) t := by
  obtain ⟨hp, hresult, hcfg, hpoll, hbound, htrace⟩ := ha
  have hexec := h.exec_of_decode (i := .waitAckLow) (by rw [hp]; rfl)
  obtain ⟨-, ⟨hl, rfl⟩ | ⟨hl, he, rfl⟩ | ⟨hl, he, rfl⟩⟩ := pollOnce_cases hexec
  · refine .seen (.read .low :: missedPolls r.cfg.pollUs k) (.inr (by simp)) ?_ ?_ (by simp)
    · simp [hresult]
    · simp [hl, htrace]
  · have hlast : r.cfg.hsPolls ≤ k + 1 := by simpa [ackBound, exhausted, hcfg, hpoll] using he
    exact .missed k rfl rfl (by omega) le_rfl (by simp [eq_high_of_ne_low hl, htrace])
  · have hmore : k + 1 < r.cfg.hsPolls := by simpa [ackBound, exhausted, hcfg, hpoll] using he
    exact .waits ⟨hp, hresult, hcfg, by simp [hpoll], hmore,
      by simp [eq_high_of_ne_low hl, htrace, hcfg, missedPolls_succ]⟩

theorem EngineStep.ackProgress {r a t : State} {k : Nat} (h : EngineStep a t) (ha : AckProgress r k a) :
    AckProgress r (k + 1) t := by
  cases ha with
  | waits hwaits => exact h.ackProgress_of_waiting hwaits
  | missed m hp hresult hbound hle htrace =>
    exact h.eq_of_idle hp ▸ .missed m hp hresult hbound (hle.trans (Nat.le_succ k)) htrace
  | seen issued hp hresult htrace hlow =>
    obtain ⟨hp', hresult'⟩ := h.pastAck hp hresult
    obtain ⟨more, hmore, -⟩ := h.validPrims
    exact .seen (more ++ issued) hp' hresult' (by rw [hmore, htrace, List.append_assoc])
      (List.mem_append_right more hlow)

/-- A property that counts the steps, kept by each engine step, holds after every run with no host turn. -/
theorem reaches_counts {P : Nat → State → Prop} (hstep : ∀ {k s t}, EngineStep s t → P k s → P (k + 1) t) {j n : Nat}
    {s t : State} (hc : CodesOk s) (hturns : s.turns = []) (h : reaches n s t) (hs : P j s) : P (j + n) t := by
  induction n generalizing j s with
  | zero => exact reaches_zero_iff.mp h ▸ hs
  | succ n ih =>
    obtain ⟨u, hu, h⟩ := reaches_succ_iff.mp h
    have hu := (step_eq_next_iff hc hturns).mp hu
    have ht := ih (hu.codesOk hc) (hu.turns_eq.trans hturns) h (hstep hu hs)
    rwa [Nat.add_right_comm] at ht

/-- Every run from START_RELEASE with no host turns: its first step releases the line, and the others are the wait's or
past it. -/
theorem ackProgress_of_reaches {s t : State} {n : Nat} (hs : SafeState s) (hp : s.pc = StateCode.startRelease)
    (hturns : s.turns = []) (h : reaches (n + 1) s t) :
    SafeState s.released ∧ reaches n s.released t ∧ AckProgress s.released n t := by
  have hc := hs.codesOk
  obtain ⟨u, hu, h⟩ := reaches_succ_iff.mp h
  have hu := (step_eq_next_iff hc hturns).mp hu
  obtain rfl := hu.eq_released hp (hs.output_of_startRelease hp)
  obtain ⟨-, -, -, hbound, -⟩ := (configLegal_iff _).mp hc.1
  have hnone : s.result = ResultCode.none := hs.resultOk ((busy_iff s).mpr (by simp [hp]))
  have hstart : AckProgress s.released 0 s.released := .waits ⟨rfl, hnone, rfl, rfl, hbound, rfl⟩
  have hend := reaches_counts (P := AckProgress s.released) EngineStep.ackProgress (hu.codesOk hc) hturns h hstart
  exact ⟨hu.safeState hs, h, by rwa [Nat.zero_add] at hend⟩

/-- The line follows the primitives after the first from what the first leaves on it. -/
theorem lineFollows_tail {level : ℝ → Level} {pulledLow : ℝ → Bool} {d : Dir} {l : Level} {p : TimedPrim}
    {ps : List TimedPrim} (h : lineFollows level pulledLow d l (p :: ps)) :
    lineFollows level pulledLow (p.prim.dirAfter d) (p.prim.drvAfter l) ps := by
  cases ps with
  | nil => trivial
  | cons q rest => exact h.2

/-- The first three timed primitives are START_RELEASE's, the others those issued since. -/
theorem timesTrace_released {s t : State} {n : Nat} {release hold setIn : TimedPrim} {polls : List TimedPrim}
    (ha : AckProgress s.released n t) (h : timesTrace (release :: hold :: setIn :: polls) s.trace t.trace) :
    release.prim = .write .high ∧ hold.prim = .delayUs s.cfg.tReleaseUs ∧ setIn.prim = .setDir .input ∧
      timesTrace polls s.released.trace t.trace := by
  obtain ⟨issued, hissued⟩ : ∃ issued, t.trace = issued ++ s.released.trace := by
    cases ha with
    | waits hwaits => exact ⟨_, hwaits.trace⟩
    | missed _ _ _ _ _ htrace | seen _ _ _ htrace _ => exact ⟨_, htrace⟩
  have hsplit : (polls.map TimedPrim.prim).reverse ++ (setIn.prim :: hold.prim :: release.prim :: s.trace) =
      issued ++ s.released.trace := by
    rw [← hissued, h]
    simp
  obtain ⟨rfl, hstart⟩ := List.append_inj' hsplit rfl
  obtain ⟨hsetIn, hhold, hrelease⟩ : setIn.prim = .setDir .input ∧ hold.prim = .delayUs s.cfg.tReleaseUs ∧
      release.prim = .write .high := by simpa [State.released] using hstart
  exact ⟨hrelease, hhold, hsetIn, hissued⟩

/-- `polls` are the timed primitives of a run of `n` steps from the release `r` to `t`, over a line and a sensor as in the
timed view, with one acknowledgement low (R191, R198, R251). -/
structure TimedWait (r t : State) (n : Nat) (level : ℝ → Level) (pulledLow : ℝ → Bool) (ackStart ackEnd last : ℝ)
    (polls : List TimedPrim) : Prop where
  safe : SafeState r
  pc : r.pc = StateCode.waitAckLow
  noTurn : r.turns = []
  run : reaches n r t
  progress : AckProgress r n t
  times : timesTrace polls r.trace t.trace
  timed : timedRun level polls
  follows : lineFollows level pulledLow r.dir r.drv polls
  ends : ∀ p ∈ polls, p.finish ≤ last
  acknowledged : acknowledges pulledLow ackStart ackEnd last

section TimedWait

variable {r t : State} {n : Nat} {level : ℝ → Level} {pulledLow : ℝ → Bool} {ackStart ackEnd last : ℝ}
  {polls : List TimedPrim} {p : TimedPrim} {l : Level}

/-- A read is Low exactly if it falls into the acknowledgement (R198). -/
theorem TimedWait.low_iff (h : TimedWait r t n level pulledLow ackStart ackEnd last polls) (hp : p ∈ polls)
    (hread : p.prim = .read l) : l = .low ↔ ackStart ≤ p.instant ∧ p.instant < ackEnd := by
  obtain ⟨hpulled, hfree⟩ := releasedLineReadsHigh r t n level pulledLow polls h.safe (by simp [h.pc]) h.noTurn h.run
    h.times h.timed h.follows p l hp hread
  obtain ⟨-, hinstant, -⟩ := read_of_respects (respects_of_timedRun h.timed p hp) hread
  obtain ⟨-, hpulls⟩ := h.acknowledged
  rw [← hpulls p.instant (hinstant.trans (h.ends p hp))]
  constructor
  · rintro rfl
    by_contra hn
    cases hfree (by simpa using hn)
  · exact hpulled

/-- While the wait goes on, and when it has failed, no read fell into the acknowledgement (R252). -/
theorem TimedWait.not_acknowledged (h : TimedWait r t n level pulledLow ackStart ackEnd last polls)
    (hmissed : t.pc = StateCode.waitAckLow ∨ t.result = ResultCode.noResponse) (hp : p ∈ polls)
    (hread : p.prim = .read l) : ¬ (ackStart ≤ p.instant ∧ p.instant < ackEnd) := by
  rw [← h.low_iff hp hread]
  rintro rfl
  have hmem : .read .low ∈ polls.map TimedPrim.prim := hread ▸ List.mem_map_of_mem hp
  cases h.progress with
  | waits hwaits =>
    rw [prims_of_timesTrace h.times hwaits.trace, List.mem_reverse] at hmem
    exact read_low_notMem_missedPolls _ _ hmem
  | missed m _ _ _ _ htrace =>
    rw [prims_of_timesTrace h.times htrace, List.mem_reverse] at hmem
    exact read_low_notMem_missedPolls _ _ (List.mem_of_ne_of_mem (by simp) hmem)
  | seen _ hpast hresult _ _ =>
    obtain hack | hfail := hmissed
    · rw [hack] at hpast
      exact absurd hpast (by decide)
    · exact hresult hfail

/-- If the acknowledgement ends before the first read, the wait runs to its bound (R251). -/
theorem TimedWait.ends_in_noResponse (h : TimedWait r t n level pulledLow ackStart ackEnd last polls)
    (hlate : ∀ p ∈ polls, ackEnd ≤ p.start) (hn : r.cfg.hsPolls ≤ n) :
    t.pc = StateCode.idle ∧ t.result = ResultCode.noResponse := by
  cases h.progress with
  | waits hwaits => exact absurd hwaits.bound (not_lt.mpr hn)
  | missed _ hpc hresult _ _ _ => exact ⟨hpc, hresult⟩
  | seen issued _ _ htrace hlow =>
    rw [← List.mem_reverse, ← prims_of_timesTrace h.times htrace] at hlow
    obtain ⟨p, hp, hread⟩ := List.mem_map.mp hlow
    obtain ⟨hstart, -, -⟩ := read_of_respects (respects_of_timedRun h.timed p hp) hread
    obtain ⟨-, hend⟩ := (h.low_iff hp hread).mp rfl
    linarith [hlate p hp]

/-- An exhausted wait delayed between every two of its reads (R252). -/
theorem TimedWait.budget_le_span {first final : TimedPrim} {between : List TimedPrim}
    (h : TimedWait r t n level pulledLow ackStart ackEnd last (first :: (between ++ [final])))
    (hfail : t.result = ResultCode.noResponse) :
    acknowledgementBudget r.cfg ≤ final.instant - first.instant := by
  cases h.progress with
  | waits hwaits => simp [hwaits.result] at hfail
  | seen _ _ hresult _ _ => exact absurd hfail hresult
  | missed m _ _ hbound _ htrace =>
    obtain ⟨hfinal, hearlier⟩ : final.prim = .read .high ∧
        (between.map TimedPrim.prim).reverse ++ [first.prim] = missedPolls r.cfg.pollUs m := by
      simpa using congrArg List.reverse (prims_of_timesTrace h.times htrace)
    obtain ⟨hfirst, hdelays⟩ := sum_leastUs_of_missedPolls hearlier
    have hsum : (between.map fun b => b.prim.leastUs).sum = m * r.cfg.pollUs := by
      rw [← hdelays, List.map_reverse, List.sum_reverse, List.map_map]
      rfl
    have hreads := respects_of_timedRun h.timed
    obtain ⟨-, hfirstEnd, -⟩ := read_of_respects (hreads first (by simp)) hfirst
    obtain ⟨hfinalStart, -, -⟩ := read_of_respects (hreads final (by simp)) hfinal
    have hbetween := sum_leastUs_le h.timed
    rw [hsum, Nat.cast_mul] at hbetween
    rw [acknowledgementBudget, hbound, Nat.cast_succ, add_sub_cancel_right]
    linarith

end TimedWait

/-- Settles O60: the run is a release and then a timed wait, whose reads are Low exactly within the acknowledgement. -/
theorem acknowledgementNeedsReleaseInTime : Obligations.AcknowledgementNeedsReleaseInTime := by
  intro s t n level pulledLow ackStart ackEnd last release hold setIn polls hs hp hturns hreach hps hrun hline hends hack
  obtain ⟨hsafe, hreach, hprogress⟩ := ackProgress_of_reaches hs hp hturns hreach
  obtain ⟨hrelease, hhold, hsetIn, hps⟩ := timesTrace_released hprogress hps
  have hline := lineFollows_tail (lineFollows_tail (lineFollows_tail hline))
  rw [hrelease, hhold, hsetIn] at hline
  have hrun := timedRun_tail (timedRun_tail hrun)
  have hwait : TimedWait s.released t n level pulledLow ackStart ackEnd last polls :=
    ⟨hsafe, rfl, hturns, hreach, hprogress, hps, timedRun_tail hrun, hline, hends, hack⟩
  refine ⟨fun hlate hn => hwait.ends_in_noResponse (fun p hmem => ?late) hn,
    fun hmissed p l hmem hread => hwait.not_acknowledged hmissed hmem hread, fun hfail first final between hsplit => ?span⟩
  case late =>
    have hinput : ackEnd ≤ setIn.finish := not_lt.mp fun hlt => hlate ⟨hsetIn, hlt⟩
    exact hinput.trans (finish_le_start hrun hmem)
  case span =>
    subst hsplit
    exact hwait.budget_le_span hfail

end Sys2Proof.Machine
end
